-- ==== Sys2Proof/Word.lean ====
section
/-! DEFINITION. The words of the block: slot addresses and elements, both of a width that is a parameter. -/

namespace Sys2Proof

/-- An unsigned AW-bit slot address (10_state.md R21 to R24: the type `uAW`). -/
abbrev SlotAddr (aw : Nat) := BitVec aw

/-- An element: a W-bit pattern the block never looks into (45_width_variants.md R163). -/
abbrev Elem (w : Nat) := BitVec w

end Sys2Proof
end

