-- ==== Sys2Proof/Config.lean ====
section
/-! DEFINITION. The parameters of the block (00_scope.md R7) and the free values of the model. -/

namespace Sys2Proof

/-- The two variants of the block (00_scope.md R2). -/
inductive Variant where
  /-- 8-bit elements (45_width_variants.md R161). -/
  | RB8
  /-- 16-bit elements (45_width_variants.md R162). -/
  | RB16
  deriving DecidableEq, Repr

/-- The element width W of a variant, in bits (R2, R160). -/
def Variant.width : Variant → Nat
  | .RB8 => 8
  | .RB16 => 16

/-- SLOT_BYTE_ORDER (R7, 20_memory.md R55): how a platform with byte-addressed storage lays out a 16-bit slot. -/
inductive ByteOrder where
  | little
  | big
  deriving DecidableEq, Repr

/-- The parameters of one block (R7), fixed for its life: no step writes them (log 1). -/
structure Params where
  /-- RB8 or RB16, which fixes W. -/
  variant : Variant
  /-- AW, the width of a slot address: OPEN, any integer >= 2. -/
  aw : Nat
  /-- SLOT_BYTE_ORDER: OPEN, read by no command (log 21). -/
  slotByteOrder : ByteOrder
  /-- ELEM8_SIGNED: OPEN, read by no command (log 21). -/
  elem8Signed : Bool
  deriving DecidableEq, Repr

/-- W of the block with these parameters. -/
abbrev Params.w (p : Params) : Nat := p.variant.width

/-- The range of the parameters (R7): AW is at least 2. -/
abbrev Params.valid (p : Params) : Prop := 2 ≤ p.aw

/-- The one-bit outputs whose value the spec leaves open at times. -/
inductive OpenFlag where
  /-- `rsp_flag` in a step that does not drive it (30_encoding.md R84). -/
  | rspFlag
  /-- the wire `empty` while INITED = 0 (10_state.md R35). -/
  | emptyWire
  /-- the wire `full` while INITED = 0 (10_state.md R35). -/
  | fullWire
  deriving DecidableEq, Repr

/-- The wider values the spec leaves open at times. -/
inductive OpenBits where
  /-- `rsp_count` in a step that does not drive it (30_encoding.md R84). -/
  | rspCount
  /-- `rsp_elem` in a step that does not drive it (30_encoding.md R84). -/
  | rspElem
  /-- `mem_addr` in a step without an access (log 6). -/
  | memAddr
  /-- `mem_wdata` in a step that stores nothing (log 6). -/
  | memWdata
  /-- `mem_rdata` in a step that loads nothing (log 6). -/
  | memRdata
  /-- BEGIN after a reset event (70_reset_and_hazards.md R230). -/
  | beginReg
  /-- END after a reset event (R230). -/
  | endReg
  /-- HEAD after a reset event (R230). -/
  | headReg
  /-- TAIL after a reset event (R230). -/
  | tailReg
  deriving DecidableEq, Repr

namespace Config

/-- The parameters `State.reset` stands for: RB8 with the AW of 95_test_vectors.md.
DESIGN CHOICE, unsafe where a claim leans on `State.reset` alone (log 1): the claims are about every state, hence every AW and W. -/
def resetParams : Params :=
  { variant := .RB8, aw := 16, slotByteOrder := .little, elem8Signed := false }

/-- Free value: a one-bit output that nothing drives. `draw` counts the steps, so that every step has a value of its own
(DESIGN CHOICE, safe; log 5, log 7). -/
opaque openFlag (what : OpenFlag) (draw : Nat) : Bool

/-- Free value: a wider value that the spec leaves open, of `width` bits (DESIGN CHOICE, safe; log 3, log 5, log 6). -/
opaque openBits (what : OpenBits) (draw width : Nat) : BitVec width

/-- Free value: what a slot holds that nothing has written since the last reset (20_memory.md R57; DESIGN CHOICE, safe; log 4).
It depends on the address and on how often the block has been reset, so a second read finds the same value (R54). -/
opaque unwrittenSlot (epoch addr width : Nat) : BitVec width

end Config

end Sys2Proof
end

