-- ==== Sys2Proof/Syntax.lean ====
section
/-! DEFINITION. The commands, their formats, the record of the command ports, the pseudo-commands and the textual form
(30_encoding.md R80 to R82, R89, R90; 60_exceptions.md R210). -/

namespace Sys2Proof

/-- The eight commands (00_scope.md R5), with the operands of 30_encoding.md R83 as natural numbers.
An operand that does not fit its port is not well formed (WellFormed.lean; log 11). -/
inductive Instr where
  /-- INIT base, size (40_init.md R100). -/
  | init (base size : Nat)
  /-- IS_EMPTY (41_status_queries.md R110). -/
  | isEmpty
  /-- IS_FULL (41_status_queries.md R111). -/
  | isFull
  /-- ROOM (42_depth_queries.md R121). -/
  | room
  /-- LEN (42_depth_queries.md R123). -/
  | len
  /-- PUSH elem (43_data_transfer.md R130). -/
  | push (elem : Nat)
  /-- POP (43_data_transfer.md R131). -/
  | pop
  /-- FLUSH (44_flush.md R150). -/
  | flush
  deriving DecidableEq, Repr

/-- The eight values of `cmd_op` by name (R82). -/
inductive Opcode where
  | INIT
  | IS_EMPTY
  | IS_FULL
  | ROOM
  | LEN
  | PUSH
  | POP
  | FLUSH
  deriving DecidableEq, Repr

/-- The three formats (R81): which operand ports a command reads. -/
inductive Format where
  /-- no operand. -/
  | N
  /-- `base` and `size`. -/
  | I
  /-- `elem`. -/
  | E
  deriving DecidableEq, Repr

/-- Which response port a command drives when it completes (R82, R84). -/
inductive Response where
  | none
  | rspFlag
  | rspCount
  | rspElem
  deriving DecidableEq, Repr

/-- The opcode of a command. -/
def Instr.opcode : Instr → Opcode
  | .init _ _ => .INIT
  | .isEmpty => .IS_EMPTY
  | .isFull => .IS_FULL
  | .room => .ROOM
  | .len => .LEN
  | .push _ => .PUSH
  | .pop => .POP
  | .flush => .FLUSH

/-- The column "format" of R82. -/
def Opcode.format : Opcode → Format
  | .INIT => .I
  | .PUSH => .E
  | .IS_EMPTY | .IS_FULL | .ROOM | .LEN | .POP | .FLUSH => .N

/-- The column "response" of R82. -/
def Opcode.response : Opcode → Response
  | .INIT | .PUSH | .FLUSH => .none
  | .IS_EMPTY | .IS_FULL => .rspFlag
  | .ROOM | .LEN => .rspCount
  | .POP => .rspElem

/-- One sample of the command ports (R80, R81). -/
structure CommandPorts (aw w : Nat) where
  /-- `cmd_valid`. -/
  valid : Bool
  /-- `cmd_op`. -/
  op : BitVec 3
  /-- `cmd_base`. -/
  base : SlotAddr aw
  /-- `cmd_size`. -/
  size : BitVec aw
  /-- `cmd_elem`. -/
  elem : Elem w
  deriving DecidableEq, Repr

/-- Who drives the block (60_exceptions.md R210, R213): a label of a presented command, which the block does not see (R211; log 13). -/
inductive Agent where
  /-- the producer context. -/
  | producer
  /-- the consumer context. -/
  | consumer
  /-- the caller of `init` (the "constructor" of R210). -/
  | caller
  deriving DecidableEq, Repr

/-- The column "commands it may issue" of R210. A convention, never checked by the block (R211). -/
def Agent.mayIssue : Agent → Opcode → Bool
  | .producer, .PUSH | .producer, .IS_FULL | .producer, .ROOM | .producer, .LEN => true
  | .consumer, .POP | .consumer, .IS_EMPTY | .consumer, .FLUSH | .consumer, .LEN => true
  | .caller, .INIT => true
  | _, _ => false

/-- What happens at the block's inputs in one step: a reset request, or one sample of the command ports.
Reset is an event of its own because it occurs between steps only (70_reset_and_hazards.md R230; log 10). -/
inductive Event (aw w : Nat) where
  | reset
  | present (issuer : Agent) (ports : CommandPorts aw w)
  deriving DecidableEq, Repr

/-- The names of R90 that are no opcode. -/
inductive Pseudo where
  | EMPTY
  | FULL
  | LENGTH
  | CAPACITY
  | OCC
  deriving DecidableEq, Repr

/-- The expansion column of R90. -/
def Pseudo.expand : Pseudo → List Instr
  | .EMPTY => [.isEmpty]
  | .FULL => [.isFull]
  | .LENGTH => [.len]
  | .CAPACITY => [.len]
  | .OCC => [.len, .room]

/-- What the host computes for OCC from the two responses of its expansion (R90). -/
def Pseudo.occValue (lenResponse roomResponse : Nat) : Nat := lenResponse - roomResponse

/-- The mnemonic of an opcode, as R82 writes it. -/
def Opcode.mnemonic : Opcode → String
  | .INIT => "INIT"
  | .IS_EMPTY => "IS_EMPTY"
  | .IS_FULL => "IS_FULL"
  | .ROOM => "ROOM"
  | .LEN => "LEN"
  | .PUSH => "PUSH"
  | .POP => "POP"
  | .FLUSH => "FLUSH"

/-- A command in the textual form of R89, numbers in decimal (log 24). -/
def Instr.text : Instr → String
  | .init base size => "INIT " ++ toString base ++ ", " ++ toString size
  | .push elem => "PUSH " ++ toString elem
  | i => i.opcode.mnemonic

/-- The optional context mark of R89; a caller's command carries none. -/
def Agent.mark : Agent → String
  | .producer => "P: "
  | .consumer => "C: "
  | .caller => ""

/-- The optional variant mark of R89. -/
def Variant.mark : Variant → String
  | .RB8 => "RB8."
  | .RB16 => "RB16."

/-- A whole line of R89: context, variant, command, and the result after the arrow where there is one. -/
def Instr.line (issuer : Agent) (v : Variant) (i : Instr) (result : Option Nat) : String :=
  issuer.mark ++ v.mark ++ i.text ++
    (match result with
     | some r => " -> " ++ toString r
     | none => "")

end Sys2Proof
end

