-- ==== Sys2Proof/WellFormed.lean ====
section
/-! DEFINITION. Which commands fit the ports of a block of given widths (30_encoding.md R83). -/

namespace Sys2Proof

/-- The operands fit their ports: `base` and `size` are unsigned AW-bit integers, `elem` is a W-bit pattern (R83).
Nothing else is required of a command: the values INIT rejects are rejected by the command, not by its form (R85). -/
def WellFormed (aw w : Nat) : Instr → Bool
  | .init base size => decide (base < 2 ^ aw) && decide (size < 2 ^ aw)
  | .push elem => decide (elem < 2 ^ w)
  | .isEmpty | .isFull | .room | .len | .pop | .flush => true

end Sys2Proof
end

