-- ==== Sys2Proof/Decode.lean ====
section
/-! DEFINITION. The decoder from the command ports and from packed command words, and the encoder (30_encoding.md R81 to R85, R88). -/

namespace Sys2Proof

/-- The opcode map (R82), one row for each command. -/
def Opcode.bits : Opcode → BitVec 3
  | .INIT => 0b000#3
  | .IS_EMPTY => 0b001#3
  | .IS_FULL => 0b010#3
  | .ROOM => 0b011#3
  | .LEN => 0b100#3
  | .PUSH => 0b101#3
  | .POP => 0b110#3
  | .FLUSH => 0b111#3

/-- The opcode map read the other way. All eight values are commands, so nothing is refused (R85). -/
def Opcode.ofBits (op : BitVec 3) : Opcode :=
  if op = 0b000#3 then .INIT
  else if op = 0b001#3 then .IS_EMPTY
  else if op = 0b010#3 then .IS_FULL
  else if op = 0b011#3 then .ROOM
  else if op = 0b100#3 then .LEN
  else if op = 0b101#3 then .PUSH
  else if op = 0b110#3 then .POP
  else .FLUSH

/-- The command on the ports: each format reads its own operand ports and ignores the others (R81, R83, R85). -/
def decode {aw w : Nat} (p : CommandPorts aw w) : Instr :=
  match Opcode.ofBits p.op with
  | .INIT => .init p.base.toNat p.size.toNat
  | .IS_EMPTY => .isEmpty
  | .IS_FULL => .isFull
  | .ROOM => .room
  | .LEN => .len
  | .PUSH => .push p.elem.toNat
  | .POP => .pop
  | .FLUSH => .flush

/-- The ports that present a command; ports its format does not read carry zeros, which nothing reads (R81, R85). -/
def encode (aw w : Nat) (i : Instr) : CommandPorts aw w :=
  match i with
  | .init base size =>
    { valid := true, op := i.opcode.bits, base := BitVec.ofNat aw base, size := BitVec.ofNat aw size, elem := 0#w }
  | .push elem =>
    { valid := true, op := i.opcode.bits, base := 0#aw, size := 0#aw, elem := BitVec.ofNat w elem }
  | .isEmpty | .isFull | .room | .len | .pop | .flush =>
    { valid := true, op := i.opcode.bits, base := 0#aw, size := 0#aw, elem := 0#w }

/-- How many bits a packed command has: `cmd_op`, `cmd_base`, `cmd_size`, `cmd_elem` one after the other.
The packing is the model's (DESIGN CHOICE, log 12): the spec gives ports, and the record order of R81. -/
def commandBits (aw w : Nat) : Nat := 3 + aw + aw + w

/-- The ports driven from a packed command, bit 0 of the word being bit 0 of `cmd_op`; bits above `nbits` are 0 (log 12). -/
def CommandPorts.ofWord (aw w nbits word : Nat) : CommandPorts aw w :=
  let bits := word % 2 ^ nbits
  { valid := true
    op := BitVec.ofNat 3 bits
    base := BitVec.ofNat aw (bits / 2 ^ 3)
    size := BitVec.ofNat aw (bits / 2 ^ (3 + aw))
    elem := BitVec.ofNat w (bits / 2 ^ (3 + aw + aw)) }

/-- The packed command on a record of ports. -/
def CommandPorts.toWord {aw w : Nat} (p : CommandPorts aw w) : Nat :=
  p.op.toNat + p.base.toNat * 2 ^ 3 + p.size.toNat * 2 ^ (3 + aw) + p.elem.toNat * 2 ^ (3 + aw + aw)

/-- Why a packed command is not read. -/
inductive DecodeError where
  /-- fewer bits than the field `cmd_op` has; no such word is in the opcode table. -/
  | noOpcode
  deriving DecidableEq, Repr

/-- The decoder of packed commands: total on all words, and refusing, by name, only a word too short to hold `cmd_op`. -/
def decodeWord (aw w nbits word : Nat) : Except DecodeError Instr :=
  if nbits < 3 then .error .noOpcode
  else .ok (decode (CommandPorts.ofWord aw w nbits word))

/-- The packed word of a command. -/
def encodeWord (aw w : Nat) (i : Instr) : Nat := (encode aw w i).toWord

/-- The command the decoder reads from a word of the opcode table, with the widths of `Config.resetParams`. -/
def decodeTableWord (nbits w : Nat) : Option Instr :=
  match decodeWord Config.resetParams.aw Config.resetParams.w nbits w with
  | .ok i => some i
  | .error _ => none

end Sys2Proof
end

