-- ==== Sys2Proof/Machine/State.lean ====
section
/-! DEFINITION. The state of one block, its reasons to stop, and the state after reset (10_state.md R20 to R36). -/

namespace Sys2Proof.Machine

/-- The codes of the register FAULT (10_state.md R32, 60_exceptions.md R200). Codes 5 to 7 are never produced and have no name
(93_implementation_defined.md V8; log 22). -/
inductive FaultCode where
  /-- code 0. -/
  | noFault
  /-- code 1: a command other than INIT while INITED = 0 (R201). -/
  | uninitialised
  /-- code 2: an INIT whose operands are rejected (R202). -/
  | constructionError
  /-- code 3: PUSH while FULL = 1 (R203). -/
  | pushOnFull
  /-- code 4: POP while EMPTY = 1 (R204). -/
  | popOnEmpty
  deriving DecidableEq, Repr

/-- The slot storage (20_memory.md R51): pairs of a slot address and the element there, addresses strictly rising.
An address not listed has no value (R57). A cell of RB8 is a `Host.Cell`; a slot of RB16 is one indivisible 16-bit value (R55; log 4). -/
abbrev Memory (w : Nat) := List (Nat × BitVec w)

/-- The output ports as the last step left them (30_encoding.md R80, R84; log 5, log 6). -/
structure Outputs (aw w : Nat) where
  /-- `rsp_flag`: the result of IS_EMPTY and IS_FULL. -/
  rspFlag : Bool
  /-- `rsp_count`: the result of ROOM and LEN. -/
  rspCount : BitVec aw
  /-- `rsp_elem`: the result of POP. -/
  rspElem : Elem w
  /-- `mem_addr`. -/
  memAddr : SlotAddr aw
  /-- `mem_we`: the step stored a slot. -/
  memWe : Bool
  /-- `mem_re`: the step loaded a slot. -/
  memRe : Bool
  /-- `mem_wdata`. -/
  memWdata : Elem w
  /-- `mem_rdata`: what the storage answered to the load. -/
  memRdata : Elem w
  deriving DecidableEq, Repr

/-- One block with slot addresses of `aw` bits and elements of `w` bits: the tuple of R20, its output ports, the inputs of the
steps to come, and the model's two counters. Register names are the spec's. -/
structure Block (aw w : Nat) where
  /-- INITED (R31). -/
  INITED : Bool
  /-- FAULT (R32). -/
  FAULT : FaultCode
  /-- BEGIN (R21): the first usable slot. -/
  BEGIN : SlotAddr aw
  /-- END (R22): the last usable slot, inclusive. -/
  END : SlotAddr aw
  /-- HEAD (R23): the next element to remove. -/
  HEAD : SlotAddr aw
  /-- TAIL (R24): the slot the next element goes to. -/
  TAIL : SlotAddr aw
  /-- MEM (R51): the slot storage. -/
  MEM : Memory w
  /-- the output ports after the last step. -/
  out : Outputs aw w
  /-- MODEL: how many steps have been taken; indexes the free values of a step (log 19). -/
  draws : Nat
  /-- MODEL: how many reset events there have been; indexes what unwritten slots hold (log 19). -/
  epoch : Nat
  /-- what the environment does in the steps to come, next first (R61; log 9). -/
  inputs : List (Event aw w)
  deriving DecidableEq, Repr

/-- The machine: the parameters and the block with the widths they fix. -/
structure State where
  /-- the parameters (00_scope.md R7), written by no step. -/
  params : Params
  /-- the block. -/
  blk : Block params.aw params.w
  deriving DecidableEq, Repr

/-- Reasons to stop with a fault: there are none. The four faults of R200 are entered as R206 describes, which is a next state,
and nothing else faults (R208; log 8, log 18). -/
inductive Fault where
  deriving DecidableEq, Repr

/-- Reasons to refuse a command. -/
inductive Refusal where
  /-- raised by an arm of `exec` that has no meaning yet (safe); no arm does, so no step answers it. -/
  | notModelled (mnemonic : String)
  deriving DecidableEq, Repr

/-- The output ports of the machine right after reset: the spec leaves them open, the model names zeros
(DESIGN CHOICE, unsafe; log 5, log 6). No access has been made, so `mem_we` and `mem_re` are 0. -/
def Outputs.reset (aw w : Nat) : Outputs aw w :=
  { rspFlag := false, rspCount := 0#aw, rspElem := 0#w, memAddr := 0#aw
    memWe := false, memRe := false, memWdata := 0#w, memRdata := 0#w }

/-- A block right after reset (R36, R230): INITED = 0, FAULT = 0, no slot has a value. The spec gives the positions no value;
the model names 0 (DESIGN CHOICE, unsafe; log 2). Every read of them is guarded by INITED = 1. -/
def Block.reset (aw w : Nat) : Block aw w :=
  { INITED := false, FAULT := .noFault
    BEGIN := 0#aw, END := 0#aw, HEAD := 0#aw, TAIL := 0#aw
    MEM := [], out := Outputs.reset aw w, draws := 0, epoch := 0, inputs := [] }

/-- The machine right after reset, with the parameters of log 1 and nothing presented. -/
def State.reset : State :=
  { params := Config.resetParams, blk := Block.reset _ _ }

end Sys2Proof.Machine
end

