-- ==== Sys2Proof/Machine/Operands.lean ====
section
/-! DEFINITION. Operands and addressing: the port values of R83, the circular successor and predecessor of R26, the effective
addresses of PUSH and POP. -/

namespace Sys2Proof.Machine

/-- The value on `cmd_base` or `cmd_size`: the AW bits of the port, taken as they stand (30_encoding.md R83; log 11). -/
def addrOperand (aw n : Nat) : BitVec aw := BitVec.ofNat aw n

/-- The value on `cmd_elem`: the W bits of the port, taken as they stand (R83; log 11). -/
def elemOperand (w n : Nat) : Elem w := BitVec.ofNat w n

variable {aw w : Nat}

/-- `succ(p)` (10_state.md R26): BEGIN after END, else one slot on. The wrap is the test against END. -/
def Block.succ (b : Block aw w) (p : SlotAddr aw) : SlotAddr aw :=
  if p = b.END then b.BEGIN else p + 1#aw

/-- `pred(p)` (R26): END before BEGIN, else one slot back. -/
def Block.pred (b : Block aw w) (p : SlotAddr aw) : SlotAddr aw :=
  if p = b.BEGIN then b.END else p - 1#aw

/-- The address PUSH stores to: TAIL as it is before the step (43_data_transfer.md R130). -/
def Block.pushAddr (b : Block aw w) : SlotAddr aw := b.TAIL

/-- The address POP loads from: HEAD as it is before the step (R131). -/
def Block.popAddr (b : Block aw w) : SlotAddr aw := b.HEAD

end Sys2Proof.Machine
end

