-- ==== Sys2Proof/Machine/Flags.lean ====
section
/-! DEFINITION. The functions of the positions: EMPTY, FULL, ROOMV, LENV, OCC, and the status wires (R28, R29, R120, R122, R124, R35). -/

namespace Sys2Proof.Machine

variable {aw w : Nat}

/-- EMPTY (10_state.md R28). -/
def Block.EMPTY (b : Block aw w) : Bool := b.HEAD == b.TAIL

/-- FULL (R29): the two-clause test, `HEAD - 1` being the plain integer (90_conflicts.md C6). -/
def Block.FULL (b : Block aw w) : Bool :=
  (b.HEAD == b.BEGIN && b.TAIL == b.END) || decide ((b.TAIL.toNat : Int) = (b.HEAD.toNat : Int) - 1)

/-- LENV (42_depth_queries.md R122): END - BEGIN over the integers, which is SIZE - 1 (90_conflicts.md C1). -/
def Block.LENV (b : Block aw w) : Int := (b.END.toNat : Int) - (b.BEGIN.toNat : Int)

/-- ROOMV (R120) over the integers; the comparison is of unsigned slot addresses (R125). -/
def Block.ROOMV (b : Block aw w) : Int :=
  if b.TAIL.toNat < b.HEAD.toNat then (b.HEAD.toNat : Int) - (b.TAIL.toNat : Int) - 1
  else ((b.HEAD.toNat : Int) - (b.TAIL.toNat : Int)) + ((b.END.toNat : Int) - (b.BEGIN.toNat : Int))

/-- OCC (R124): LENV - ROOMV. -/
def Block.OCC (b : Block aw w) : Int := b.LENV - b.ROOMV

/-- SIZE of the region, `END - BEGIN + 1` (00_scope.md, glossary). -/
def Block.SIZE (b : Block aw w) : Int := b.LENV + 1

/-- A count as the port `rsp_count` carries it: AW bits. Under the invariants the integer fits (R120, R122); elsewhere it is
taken modulo 2^AW (R125; log 20). -/
def countPort (aw : Nat) (n : Int) : BitVec aw := BitVec.ofInt aw n

/-- The code FAULT holds (R32). -/
def FaultCode.code : FaultCode → BitVec 3
  | .noFault => 0#3
  | .uninitialised => 1#3
  | .constructionError => 2#3
  | .pushOnFull => 3#3
  | .popOnEmpty => 4#3

/-- The wire `empty` (R35): EMPTY, and any value while INITED = 0 (log 7). -/
def Block.emptyWire (b : Block aw w) : Bool :=
  if b.INITED then b.EMPTY else Config.openFlag .emptyWire b.draws

/-- The wire `full` (R35): FULL, and any value while INITED = 0 (log 7). -/
def Block.fullWire (b : Block aw w) : Bool :=
  if b.INITED then b.FULL else Config.openFlag .fullWire b.draws

/-- The wire `inited` (R35). -/
def Block.initedWire (b : Block aw w) : Bool := b.INITED

/-- The wires `fault[2:0]` (R35). -/
def Block.faultWires (b : Block aw w) : BitVec 3 := b.FAULT.code

end Sys2Proof.Machine
end

