-- ==== Sys2Proof/Machine/Ops.lean ====
section
/-! DEFINITION. The operations every command shares: storage, responses, entering a fault, the tests before a command, reset and
the step without a command. -/

namespace Sys2Proof.Machine

/-- The element at a slot address, none where nothing has been written (20_memory.md R57). -/
def Memory.read {w : Nat} : Memory w → Nat → Option (Elem w)
  | [], _ => none
  | (a, e) :: m, addr => if a = addr then some e else Memory.read m addr

/-- The storage with one whole slot written (R54), in the canonical form. -/
def Memory.write {w : Nat} : Memory w → Nat → Elem w → Memory w
  | [], addr, v => [(addr, v)]
  | (a, e) :: m, addr, v =>
    if addr < a then (addr, v) :: (a, e) :: m
    else if addr = a then (addr, v) :: m
    else (a, e) :: Memory.write m addr v

/-- The canonical form: addresses strictly rising and inside the slot address space of R51. -/
abbrev Memory.wf {w : Nat} (aw : Nat) (m : Memory w) : Prop :=
  m.Pairwise (fun c d => c.1 < d.1) ∧ ∀ c ∈ m, c.1 < 2 ^ aw

variable {aw w : Nat}

/-- The slot at an address as the model's storage lists it. -/
def Block.slot (b : Block aw w) (a : SlotAddr aw) : Option (Elem w) := b.MEM.read a.toNat

/-- `MemRead(a, 1)` (00_scope.md R9): the slot's element, and a free value where the slot has none (log 4). -/
def Block.slotValue (b : Block aw w) (a : SlotAddr aw) : Elem w :=
  (b.slot a).getD (Config.unwrittenSlot b.epoch a.toNat w)

/-- Output ports nobody drives: the responses hold any value (30_encoding.md R84), there is no storage access (R52; log 5, log 6). -/
def Outputs.undriven (aw w draw : Nat) : Outputs aw w :=
  { rspFlag := Config.openFlag .rspFlag draw
    rspCount := Config.openBits .rspCount draw aw
    rspElem := Config.openBits .rspElem draw w
    memAddr := Config.openBits .memAddr draw aw
    memWe := false
    memRe := false
    memWdata := Config.openBits .memWdata draw w
    memRdata := Config.openBits .memRdata draw w }

/-- A step that answers nothing and touches no storage. Every other end of a step starts from it. -/
def Block.quiet (b : Block aw w) : Block aw w :=
  { b with out := Outputs.undriven aw w b.draws, draws := b.draws + 1 }

/-- Answer a flag on `rsp_flag`; the other ports are not driven (R84). -/
def Block.answerFlag (b : Block aw w) (v : Bool) : Block aw w :=
  { b.quiet with out := { Outputs.undriven aw w b.draws with rspFlag := v } }

/-- Answer a count on `rsp_count`. -/
def Block.answerCount (b : Block aw w) (v : BitVec aw) : Block aw w :=
  { b.quiet with out := { Outputs.undriven aw w b.draws with rspCount := v } }

/-- Store one slot through the storage port (20_memory.md R54), no response. -/
def Block.storeSlot (b : Block aw w) (a : SlotAddr aw) (v : Elem w) : Block aw w :=
  { b.quiet with
    MEM := b.MEM.write a.toNat v
    out := { Outputs.undriven aw w b.draws with memAddr := a, memWe := true, memWdata := v } }

/-- Load one slot through the storage port and answer it on `rsp_elem`, bit for bit (R84). -/
def Block.loadSlot (b : Block aw w) (a : SlotAddr aw) : Block aw w :=
  { b.quiet with
    out := { Outputs.undriven aw w b.draws with
      rspElem := b.slotValue a, memAddr := a, memRe := true, memRdata := b.slotValue a } }

/-- HEAD <- p. -/
def Block.setHead (b : Block aw w) (p : SlotAddr aw) : Block aw w := { b with HEAD := p }

/-- TAIL <- p. -/
def Block.setTail (b : Block aw w) (p : SlotAddr aw) : Block aw w := { b with TAIL := p }

/-- ENTERING A FAULT (60_exceptions.md R206): FAULT <- the code, nothing else changes, no value is returned.
Control goes nowhere, and there is no return: only reset leaves (R207). -/
def Block.raise (b : Block aw w) (f : FaultCode) : Block aw w := { b.quiet with FAULT := f }

/-- The first test of every command (30_encoding.md R88, 60_exceptions.md R205, R207): while FAULT != 0 nothing happens. -/
def Block.unlessFaulted (b : Block aw w) (cmd : Block aw w → Block aw w) : Block aw w :=
  if b.FAULT = .noFault then cmd b else b.quiet

/-- The tests of every command but INIT (R88, R205): FAULT, then INITED (R201). -/
def Block.whenReady (b : Block aw w) (cmd : Block aw w → Block aw w) : Block aw w :=
  b.unlessFaulted fun b => if b.INITED then cmd b else b.raise .uninitialised

/-- RESET (70_reset_and_hazards.md R230): INITED <- 0, FAULT <- 0; the positions become free values and no slot has a value,
so nothing of them is kept (log 3). -/
def Block.takeReset (b : Block aw w) : Block aw w :=
  { b.quiet with
    INITED := false
    FAULT := .noFault
    BEGIN := Config.openBits .beginReg b.draws aw
    END := Config.openBits .endReg b.draws aw
    HEAD := Config.openBits .headReg b.draws aw
    TAIL := Config.openBits .tailReg b.draws aw
    MEM := []
    epoch := b.epoch + 1 }

/-- A step in which no command is presented (30_encoding.md R86): no state changes (log 9). -/
def Block.idle (b : Block aw w) : Block aw w := b.quiet

/-- What the environment does in the next step: its next event, `cmd_valid` = 0 where it has run out (log 9). -/
inductive NextInput (aw w : Nat) where
  /-- no command in this step. -/
  | idle
  /-- reset. -/
  | reset
  /-- a command on the ports. -/
  | command (p : CommandPorts aw w)
  deriving DecidableEq, Repr

/-- The next input of a block. The issuer's label is not passed on: the block does not see it (60_exceptions.md R211). -/
def Block.nextInput (b : Block aw w) : NextInput aw w :=
  match b.inputs with
  | [] => .idle
  | .reset :: _ => .reset
  | .present _ p :: _ => if p.valid then .command p else .idle

/-- The block with its next event taken off the list. -/
def Block.takeInput (b : Block aw w) : Block aw w := { b with inputs := b.inputs.tail }

/-- The block with one more event presented before those that wait. -/
def Block.presentNext (b : Block aw w) (e : Event aw w) : Block aw w := { b with inputs := e :: b.inputs }

/-- The machine with another block of the same widths. -/
def State.withBlk (s : State) (b : Block s.params.aw s.params.w) : State := { s with blk := b }

end Sys2Proof.Machine
end

