-- ==== Sys2Proof/Machine/Construction.lean ====
section
/-! DEFINITION. INIT (40_init.md R100, R101). -/

namespace Sys2Proof.Machine

variable {aw w : Nat}

/-- What INIT rejects (R100, R202), over the integers: fewer than two slots, or a region past the top slot address. -/
abbrev initRejects (base size : BitVec aw) : Prop :=
  (size.toNat : Int) < 2 ∨ (base.toNat : Int) + (size.toNat : Int) - 1 > 2 ^ aw - 1

/-- The four positions of a region of `size` slots from `base` (R100). -/
def Block.install (b : Block aw w) (base size : BitVec aw) : Block aw w :=
  { b.quiet with
    BEGIN := base
    END := base + size - 1#aw
    HEAD := base
    TAIL := base
    INITED := true }

/-- INIT: it is not subject to the INITED test, and a second INIT is an INIT like the first (R101). No slot is touched. -/
def Block.initCmd (b : Block aw w) (base size : BitVec aw) : Block aw w :=
  b.unlessFaulted fun b =>
    if initRejects base size then b.raise .constructionError else b.install base size

/-- INIT base, size. -/
def execInit (base size : Nat) (s : State) : Host.Outcome State Fault Refusal :=
  .next (s.withBlk (s.blk.initCmd (addrOperand _ base) (addrOperand _ size)))

end Sys2Proof.Machine
end

