-- ==== Sys2Proof/Machine/DataTransfer.lean ====
section
/-! DEFINITION. PUSH and POP (43_data_transfer.md R130, R131), each as its two halves in the order of 20_memory.md R62. -/

namespace Sys2Proof.Machine

variable {aw w : Nat}

/-- First half of PUSH: the element goes to the slot at TAIL. -/
def Block.pushStore (b : Block aw w) (e : Elem w) : Block aw w := b.storeSlot b.pushAddr e

/-- Second half of PUSH: TAIL <- succ(TAIL). -/
def Block.pushAdvance (b : Block aw w) : Block aw w := b.setTail (b.succ b.TAIL)

/-- First half of POP: the slot at HEAD is read and answered. The slot keeps its bits (R131). -/
def Block.popLoad (b : Block aw w) : Block aw w := b.loadSlot b.popAddr

/-- Second half of POP: HEAD <- succ(HEAD). -/
def Block.popAdvance (b : Block aw w) : Block aw w := b.setHead (b.succ b.HEAD)

/-- PUSH (R130): on a full buffer the fault and no other effect (R203), else both halves in one step (R60). -/
def Block.pushCmd (b : Block aw w) (e : Elem w) : Block aw w :=
  b.whenReady fun b => if b.FULL then b.raise .pushOnFull else (b.pushStore e).pushAdvance

/-- POP (R131): on an empty buffer the fault and no value (R204), else both halves in one step (R60). -/
def Block.popCmd (b : Block aw w) : Block aw w :=
  b.whenReady fun b => if b.EMPTY then b.raise .popOnEmpty else b.popLoad.popAdvance

/-- PUSH elem. -/
def execPush (elem : Nat) (s : State) : Host.Outcome State Fault Refusal :=
  .next (s.withBlk (s.blk.pushCmd (elemOperand _ elem)))

/-- POP. -/
def execPop (s : State) : Host.Outcome State Fault Refusal := .next (s.withBlk s.blk.popCmd)

end Sys2Proof.Machine
end

