-- ==== Sys2Proof/Machine/DepthQueries.lean ====
section
/-! DEFINITION. ROOM and LEN (42_depth_queries.md R121, R123). -/

namespace Sys2Proof.Machine

variable {aw w : Nat}

/-- ROOM answers ROOMV and writes nothing (R121). -/
def Block.roomCmd (b : Block aw w) : Block aw w := b.whenReady fun b => b.answerCount (countPort aw b.ROOMV)

/-- LEN answers LENV and writes nothing; it reads neither cursor (R123). -/
def Block.lenCmd (b : Block aw w) : Block aw w := b.whenReady fun b => b.answerCount (countPort aw b.LENV)

/-- ROOM. -/
def execRoom (s : State) : Host.Outcome State Fault Refusal := .next (s.withBlk s.blk.roomCmd)

/-- LEN. -/
def execLen (s : State) : Host.Outcome State Fault Refusal := .next (s.withBlk s.blk.lenCmd)

end Sys2Proof.Machine
end

