-- ==== Sys2Proof/Machine/Flushing.lean ====
section
/-! DEFINITION. FLUSH (44_flush.md R150). -/

namespace Sys2Proof.Machine

variable {aw w : Nat}

/-- FLUSH: HEAD <- TAIL, nothing else; no slot is cleared (R150). -/
def Block.flushCmd (b : Block aw w) : Block aw w := b.whenReady fun b => b.quiet.setHead b.TAIL

/-- FLUSH. -/
def execFlush (s : State) : Host.Outcome State Fault Refusal := .next (s.withBlk s.blk.flushCmd)

end Sys2Proof.Machine
end

