-- ==== Sys2Proof/Machine/StatusQueries.lean ====
section
/-! DEFINITION. IS_EMPTY and IS_FULL (41_status_queries.md R110, R111). -/

namespace Sys2Proof.Machine

variable {aw w : Nat}

/-- IS_EMPTY answers EMPTY and writes nothing (R110). -/
def Block.isEmptyCmd (b : Block aw w) : Block aw w := b.whenReady fun b => b.answerFlag b.EMPTY

/-- IS_FULL answers FULL and writes nothing (R111). -/
def Block.isFullCmd (b : Block aw w) : Block aw w := b.whenReady fun b => b.answerFlag b.FULL

/-- IS_EMPTY. -/
def execIsEmpty (s : State) : Host.Outcome State Fault Refusal := .next (s.withBlk s.blk.isEmptyCmd)

/-- IS_FULL. -/
def execIsFull (s : State) : Host.Outcome State Fault Refusal := .next (s.withBlk s.blk.isFullCmd)

end Sys2Proof.Machine
end

