-- ==== Sys2Proof/Machine/Dispatch.lean ====
section
/-! DEFINITION. One arm for each command (30_encoding.md R82). -/

namespace Sys2Proof.Machine

def exec (i : Instr) (s : State) : Host.Outcome State Fault Refusal :=
  match i with
  | .init base size => Sys2Proof.Machine.execInit base size s
  | .isEmpty => Sys2Proof.Machine.execIsEmpty s
  | .isFull => Sys2Proof.Machine.execIsFull s
  | .room => Sys2Proof.Machine.execRoom s
  | .len => Sys2Proof.Machine.execLen s
  | .push elem => Sys2Proof.Machine.execPush elem s
  | .pop => Sys2Proof.Machine.execPop s
  | .flush => Sys2Proof.Machine.execFlush s

end Sys2Proof.Machine
end

