-- ==== Sys2Proof/Machine/Step.lean ====
section
/-! DEFINITION. One step: the next event of the environment is taken, and the presented command, if there is one, is executed
whole (20_memory.md R60, R61). -/

namespace Sys2Proof.Machine

/-- The machine with its next event taken off the list of inputs. -/
def State.takeInput (s : State) : State := s.withBlk s.blk.takeInput

/-- One step. -/
def step (s : State) : Host.Outcome State Fault Refusal :=
  match s.blk.nextInput with
  | .idle => .next (s.takeInput.withBlk s.takeInput.blk.idle)
  | .reset => .next (s.takeInput.withBlk s.takeInput.blk.takeReset)
  | .command p => exec (decode p) s.takeInput

/-- The machine with a packed command (log 12) presented in the very next step (log 9). The label is the caller's; nothing reads it. -/
def State.withFetchWord (s : State) (nbits w : Nat) : State :=
  s.withBlk (s.blk.presentNext (.present .caller (CommandPorts.ofWord s.params.aw s.params.w nbits w)))

end Sys2Proof.Machine
end

