-- ==== Sys2Proof/Machine/Queue.lean ====
section
/-! DEFINITION. What the buffer holds (42_depth_queries.md R124, 46_sequence_laws.md R171), read off the positions and the storage. -/

namespace Sys2Proof.Machine

variable {aw w : Nat}

/-- `n` slots in circular order from `p`. -/
def Block.slotsFrom (b : Block aw w) (p : SlotAddr aw) : Nat → List (SlotAddr aw)
  | 0 => []
  | n + 1 => p :: b.slotsFrom (b.succ p) n

/-- The held slots, oldest first: HEAD, succ(HEAD), ..., pred(TAIL), OCC slots in all (R124). -/
def Block.heldSlots (b : Block aw w) : List (SlotAddr aw) := b.slotsFrom b.HEAD b.OCC.toNat

/-- The content Q of the buffer, oldest first (R171). -/
def Block.contents (b : Block aw w) : List (Elem w) := b.heldSlots.map b.slotValue

/-- The content as numbers, so that states of any widths can be compared. -/
def State.contents (s : State) : List Nat := s.blk.contents.map BitVec.toNat

end Sys2Proof.Machine
end

