-- ==== Sys2Proof/Safety.lean ====
section
/-! DEFINITION. What counts as a legal state and a good run (10_state.md R25, 60_exceptions.md R207, R210, R213), and the relations
between states in which the claims are written. -/

namespace Sys2Proof.Machine

variable {aw w : Nat}

/-- INITED = 1 and FAULT = 0: the premise of R25 and of every law of 46_sequence_laws.md. -/
abbrev Block.ready (b : Block aw w) : Prop := b.INITED = true ∧ b.FAULT = .noFault

/-- The invariants of R25: both cursors inside the region, and BEGIN < END. -/
abbrev Block.inRange (b : Block aw w) : Prop :=
  b.BEGIN < b.END ∧ b.BEGIN ≤ b.HEAD ∧ b.HEAD ≤ b.END ∧ b.BEGIN ≤ b.TAIL ∧ b.TAIL ≤ b.END

/-- Every held slot has an element (20_memory.md R57). -/
abbrev Block.heldWritten (b : Block aw w) : Prop := ∀ a ∈ b.heldSlots, (b.slot a).isSome = true

/-- The invariant: the storage keeps its canonical form, and once INIT has established the buffer the positions
satisfy R25, LENV is at most 2^AW - 2 (42_depth_queries.md R122), and no held slot is without an element. -/
abbrev Block.Inv (b : Block aw w) : Prop :=
  Memory.wf aw b.MEM ∧
    (b.INITED = true → b.inRange ∧ b.LENV ≤ 2 ^ aw - 2 ∧ b.heldWritten)

/-- The invariant of the machine's block. -/
abbrev State.Inv (s : State) : Prop := s.blk.Inv

/-- A good end of a run (60_exceptions.md R213): no command has faulted. -/
abbrev State.good (s : State) : Prop := s.blk.FAULT = .noFault

/-- The six registers agree; the elements may be of different widths. -/
abbrev Block.sameRegisters {w' : Nat} (b : Block aw w) (c : Block aw w') : Prop :=
  c.INITED = b.INITED ∧ c.FAULT = b.FAULT ∧ c.BEGIN = b.BEGIN ∧ c.END = b.END ∧ c.HEAD = b.HEAD ∧ c.TAIL = b.TAIL

/-- The registers agree but for FAULT (60_exceptions.md R206). -/
abbrev Block.sameButFault (b c : Block aw w) : Prop :=
  c.INITED = b.INITED ∧ c.BEGIN = b.BEGIN ∧ c.END = b.END ∧ c.HEAD = b.HEAD ∧ c.TAIL = b.TAIL

/-- Every slot reads alike, the slots without a value among them, and the same events wait. -/
def Block.sameStorage (b c : Block aw w) : Prop :=
  (∀ a, c.slot a = b.slot a) ∧ c.epoch = b.epoch ∧ c.inputs = b.inputs

/-- No storage access in the last step. -/
abbrev Block.noAccess (b : Block aw w) : Prop := b.out.memWe = false ∧ b.out.memRe = false

/-- The commands one after another (20_memory.md R61): any interleaving of the contexts' commands is such a list. -/
def runCommands : List Instr → State → Host.Outcome State Fault Refusal
  | [], s => .next s
  | i :: is, s =>
    match exec i s with
    | .next t => runCommands is t
    | .fault r => .fault r
    | .refused r => .refused r

/-- The values the POP commands of a list return, in order. -/
def poppedBy : List Instr → State → List Nat
  | [], _ => []
  | i :: is, s =>
    match exec i s with
    | .next t => (if i = .pop then [t.blk.out.rspElem.toNat] else []) ++ poppedBy is t
    | .fault _ => []
    | .refused _ => []

/-- The elements the PUSH commands of a list store, in order, as a block of width `w` takes them. -/
def pushedBy (w : Nat) : List Instr → List Nat
  | [] => []
  | .push e :: is => (elemOperand w e).toNat :: pushedBy w is
  | _ :: is => pushedBy w is

/-- How many commands of a list have an opcode. -/
def countOf (op : Opcode) (is : List Instr) : Nat := is.countP fun i => i.opcode == op

/-- Every command of the list is one a context may issue (60_exceptions.md R210). -/
abbrev issuedOnlyBy (who : Agent) (is : List Instr) : Prop := ∀ i ∈ is, who.mayIssue i.opcode = true

/-- Every command of the list is the producer's or the consumer's (R210): no INIT. -/
abbrev issuedByContexts (is : List Instr) : Prop :=
  ∀ i ∈ is, Agent.producer.mayIssue i.opcode = true ∨ Agent.consumer.mayIssue i.opcode = true

/-- Two blocks' regions do not overlap (20_memory.md R59, 45_width_variants.md R164): an assumption on the environment (log 14,
log 15), which no step reads. What "overlap" means is open in the spec, and this is the model's reading (DESIGN CHOICE, log 25):
the slots of both blocks are numbered in one space, whatever W and AW each has, and a block with INITED = 0 has no region. -/
def State.regionsDisjoint (s t : State) : Prop :=
  s.blk.INITED = true → t.blk.INITED = true →
    s.blk.END.toNat < t.blk.BEGIN.toNat ∨ t.blk.END.toNat < s.blk.BEGIN.toNat

end Sys2Proof.Machine
end

