-- ==== Sys2Proof/Certificates/Slice0/Obligations.lean ====
section
/-! DEFINITION. The statements about the block, from the numbered rules of spec/. `s.withBlk b` is the machine `s` with the block
`b`; a statement with `∃ b, exec i s = .next (s.withBlk b) ∧ …` says that the command completes and what it leaves. -/

open Sys2Proof Sys2Proof.Machine

/-! ### Encoding -/

/-- Presenting a command whose operands fit the ports and decoding the ports gives the command back (R81 to R83). -/
def Obligations.DecodeEncodePorts : Prop :=
  ∀ (aw w : Nat) (i : Instr), WellFormed aw w i = true →
    (encode aw w i).valid = true ∧ decode (encode aw w i) = i

/-- The same through one packed word; the packing is the model's choice (log 12). -/
def Obligations.DecodeEncodeWord : Prop :=
  ∀ (aw w : Nat) (i : Instr), WellFormed aw w i = true →
    encodeWord aw w i < 2 ^ commandBits aw w ∧
      decodeWord aw w (commandBits aw w) (encodeWord aw w i) = .ok i

/-- Ports that a command's format does not read do not matter, whatever they hold (R81, R85). -/
def Obligations.DecodeIgnoresUnreadPorts : Prop :=
  ∀ (aw w : Nat) (p q : CommandPorts aw w), p.op = q.op →
    (p.op = 0b000#3 → p.base = q.base ∧ p.size = q.size) →
    (p.op = 0b101#3 → p.elem = q.elem) →
    decode p = decode q

/-- Encoding what was decoded restores the opcode and the ports the command reads. -/
def Obligations.EncodeDecodePorts : Prop :=
  ∀ (aw w : Nat) (p : CommandPorts aw w),
    (encode aw w (decode p)).op = p.op ∧
    (p.op = 0b000#3 →
      (encode aw w (decode p)).base = p.base ∧ (encode aw w (decode p)).size = p.size) ∧
    (p.op = 0b101#3 → (encode aw w (decode p)).elem = p.elem)

/-- The eight opcodes (R82) in 8-bit table words, and three packed commands written out bit by bit (AW = 16): the INIT of row 1 and
the PUSH of row 2 of program P1 on RB8, and the PUSH of row 3 of P2 on RB16 (95_test_vectors.md). The packing of the ports into a
word and its padding with zeros are the model's choice (log 12), as are the widths `decodeTableWord` reads with (log 1). -/
def Obligations.DecodeWords : Prop :=
  decodeTableWord 8 0b000 = some (.init 0 0) ∧
  decodeTableWord 8 0b001 = some .isEmpty ∧
  decodeTableWord 8 0b010 = some .isFull ∧
  decodeTableWord 8 0b011 = some .room ∧
  decodeTableWord 8 0b100 = some .len ∧
  decodeTableWord 8 0b101 = some (.push 0) ∧
  decodeTableWord 8 0b110 = some .pop ∧
  decodeTableWord 8 0b111 = some .flush ∧
  decodeWord 16 8 43 0b00000000_0000000000000101_0000000100000000_000 = .ok (.init 0x0100 5) ∧
  decodeWord 16 8 43 0b01000001_0000000000000000_0000000000000000_101 = .ok (.push 0x41) ∧
  decodeWord 16 16 51 0b1000000000000000_0000000000000000_0000000000000000_101 = .ok (.push 0x8000)

/-! ### The step, reset, the step without a command -/

/-- A step in which a command is presented runs the decoded command on the state without that event (R60, R88). -/
def Obligations.StepRunsPresented : Prop :=
  ∀ (s : State) (who : Agent) (p : CommandPorts s.params.aw s.params.w)
    (rest : List (Event s.params.aw s.params.w)),
    s.blk.inputs = .present who p :: rest → p.valid = true →
      WellFormed s.params.aw s.params.w (decode p) = true ∧
      step s = exec (decode p) (s.withBlk { s.blk with inputs := rest })

/-- A packed command placed by `State.withFetchWord` is the command the very next step runs, on the state it was placed in (log 9, log 12). -/
def Obligations.StepRunsFetchWord : Prop :=
  ∀ (s : State) (nbits word : Nat) (i : Instr),
    decodeWord s.params.aw s.params.w nbits word = .ok i →
      step (s.withFetchWord nbits word) = exec i s

/-- Every step answers a next state, and no step writes the parameters (R208, R7). -/
def Obligations.EveryStepCompletes : Prop :=
  ∀ s : State, ∃ t, step s = .next t ∧ t.params = s.params

/-- A step without a command changes no state (R86): nothing is presented, or `cmd_valid` is 0. -/
def Obligations.IdleStepChangesNothing : Prop :=
  ∀ s : State,
    (s.blk.inputs = [] ∨ ∃ who p rest, s.blk.inputs = .present who p :: rest ∧ p.valid = false) →
    ∃ b : Block s.params.aw s.params.w, step s = .next (s.withBlk b) ∧
      s.blk.sameRegisters b ∧ (∀ a, b.slot a = s.blk.slot a) ∧ b.epoch = s.blk.epoch ∧
      b.inputs = s.blk.inputs.tail ∧ b.noAccess

/-- Reset (R230): INITED and FAULT become 0, no slot has a value, the events behind it still wait, and a command other than INIT
then raises Uninitialised. Nothing is claimed of the positions. -/
def Obligations.ResetEvent : Prop :=
  ∀ (s : State) (rest : List (Event s.params.aw s.params.w)), s.blk.inputs = .reset :: rest →
    ∃ b : Block s.params.aw s.params.w, step s = .next (s.withBlk b) ∧
      b.INITED = false ∧ b.FAULT = .noFault ∧ (∀ a, b.slot a = none) ∧ b.inputs = rest ∧ b.noAccess ∧
      ∀ i : Instr, i.opcode ≠ .INIT →
        ∃ c : Block s.params.aw s.params.w,
          exec i (s.withBlk b) = .next (s.withBlk c) ∧ c.FAULT = .uninitialised

/-- Reset forgets (R230): two blocks that differ in registers, storage and outputs are one and the same state after it. -/
def Obligations.ResetForgets : Prop :=
  ∀ (p : Params) (b c : Block p.aw p.w) (rest : List (Event p.aw p.w)),
    b.inputs = .reset :: rest → c.inputs = .reset :: rest →
    b.draws = c.draws → b.epoch = c.epoch →
      step ⟨p, b⟩ = step ⟨p, c⟩

/-- The state after reset as far as the spec fixes it (R36, R231): INITED = 0, FAULT = 0, no slot has a value. -/
def Obligations.ResetState : Prop :=
  State.reset.blk.INITED = false ∧ State.reset.blk.FAULT = .noFault ∧
    ∀ a, State.reset.blk.slot a = none

/-! ### The commands -/

/-- INIT completes on every region of at least two slots that fits the address space, whether or not a buffer stands (R100, R101):
the positions, the flags after it, no element held, no slot touched. -/
def Obligations.InitInstalls : Prop :=
  ∀ (base size : Nat) (s : State), s.blk.FAULT = .noFault →
    base < 2 ^ s.params.aw → size < 2 ^ s.params.aw → 2 ≤ size → base + size - 1 ≤ 2 ^ s.params.aw - 1 →
    ∃ b : Block s.params.aw s.params.w, exec (.init base size) s = .next (s.withBlk b) ∧
      b.INITED = true ∧ b.FAULT = .noFault ∧
      b.BEGIN.toNat = base ∧ b.END.toNat = base + size - 1 ∧ b.HEAD.toNat = base ∧ b.TAIL.toNat = base ∧
      b.EMPTY = true ∧ b.FULL = false ∧ b.ROOMV = (size : Int) - 1 ∧ b.LENV = (size : Int) - 1 ∧ b.OCC = 0 ∧
      b.contents = [] ∧ s.blk.sameStorage b ∧ b.noAccess

/-- INIT raises ConstructionError on fewer than two slots and on a region past the top slot address; nothing but FAULT changes (R202, R206). -/
def Obligations.InitRejects : Prop :=
  ∀ (base size : Nat) (s : State), s.blk.FAULT = .noFault →
    base < 2 ^ s.params.aw → size < 2 ^ s.params.aw →
    (size < 2 ∨ base + size - 1 > 2 ^ s.params.aw - 1) →
    ∃ b : Block s.params.aw s.params.w, exec (.init base size) s = .next (s.withBlk b) ∧
      b.FAULT = .constructionError ∧ b.faultWires = 2#3 ∧
      s.blk.sameButFault b ∧ s.blk.sameStorage b ∧ b.noAccess

/-- IS_EMPTY answers HEAD == TAIL and writes nothing (R110). -/
def Obligations.IsEmptyAnswers : Prop :=
  ∀ s : State, s.blk.ready →
    ∃ b : Block s.params.aw s.params.w, exec .isEmpty s = .next (s.withBlk b) ∧
      (b.out.rspFlag = true ↔ s.blk.HEAD = s.blk.TAIL) ∧
      s.blk.sameRegisters b ∧ s.blk.sameStorage b ∧ b.noAccess

/-- IS_FULL answers the two-clause test and writes nothing (R111). -/
def Obligations.IsFullAnswers : Prop :=
  ∀ s : State, s.blk.ready →
    ∃ b : Block s.params.aw s.params.w, exec .isFull s = .next (s.withBlk b) ∧
      (b.out.rspFlag = true ↔
        (s.blk.HEAD = s.blk.BEGIN ∧ s.blk.TAIL = s.blk.END) ∨
          (s.blk.TAIL.toNat : Int) = (s.blk.HEAD.toNat : Int) - 1) ∧
      s.blk.sameRegisters b ∧ s.blk.sameStorage b ∧ b.noAccess

/-- ROOM completes and writes nothing; under R25 its answer is the integer ROOMV of R120, whole (R121). -/
def Obligations.RoomAnswers : Prop :=
  ∀ s : State, s.blk.ready →
    ∃ b : Block s.params.aw s.params.w, exec .room s = .next (s.withBlk b) ∧
      (s.blk.inRange →
        (b.out.rspCount.toNat : Int) =
          if s.blk.TAIL.toNat < s.blk.HEAD.toNat then (s.blk.HEAD.toNat : Int) - s.blk.TAIL.toNat - 1
          else ((s.blk.HEAD.toNat : Int) - s.blk.TAIL.toNat) + ((s.blk.END.toNat : Int) - s.blk.BEGIN.toNat)) ∧
      s.blk.sameRegisters b ∧ s.blk.sameStorage b ∧ b.noAccess

/-- LEN completes and writes nothing; under R25 its answer is END - BEGIN, which is SIZE - 1 (R122, R123, conflict C1). -/
def Obligations.LenAnswers : Prop :=
  ∀ s : State, s.blk.ready →
    ∃ b : Block s.params.aw s.params.w, exec .len s = .next (s.withBlk b) ∧
      (s.blk.inRange →
        (b.out.rspCount.toNat : Int) = (s.blk.END.toNat : Int) - s.blk.BEGIN.toNat ∧
        (b.out.rspCount.toNat : Int) = s.blk.SIZE - 1) ∧
      s.blk.sameRegisters b ∧ s.blk.sameStorage b ∧ b.noAccess

/-- PUSH on a buffer that is not full (R130): the W bits go to the slot at the old TAIL and to no other, TAIL moves with the wrap,
nothing else is written. -/
def Obligations.PushStores : Prop :=
  ∀ (elem : Nat) (s : State), s.blk.ready → s.blk.FULL = false →
    ∃ b : Block s.params.aw s.params.w, exec (.push elem) s = .next (s.withBlk b) ∧
      b.slot s.blk.TAIL = some (BitVec.ofNat s.params.w elem) ∧
      (∀ a, a ≠ s.blk.TAIL → b.slot a = s.blk.slot a) ∧
      (s.blk.TAIL = s.blk.END → b.TAIL = s.blk.BEGIN) ∧
      (s.blk.TAIL ≠ s.blk.END → b.TAIL = s.blk.TAIL + 1#s.params.aw) ∧
      b.INITED = true ∧ b.FAULT = .noFault ∧
      b.BEGIN = s.blk.BEGIN ∧ b.END = s.blk.END ∧ b.HEAD = s.blk.HEAD ∧
      b.out.memWe = true ∧ b.out.memRe = false ∧ b.out.memAddr = s.blk.TAIL ∧
      b.out.memWdata = BitVec.ofNat s.params.w elem ∧
      b.epoch = s.blk.epoch ∧ b.inputs = s.blk.inputs

/-- The flags after a PUSH (R130): EMPTY = 0, FULL = 1 exactly when one slot was free, ROOMV one less, OCC one more. -/
def Obligations.PushFlagsAfter : Prop :=
  ∀ (elem : Nat) (s t : State), s.blk.ready → s.blk.inRange → s.blk.FULL = false →
    exec (.push elem) s = .next t →
      t.blk.EMPTY = false ∧ (t.blk.FULL = true ↔ s.blk.ROOMV = 1) ∧
      t.blk.ROOMV = s.blk.ROOMV - 1 ∧ t.blk.OCC = s.blk.OCC + 1 ∧ t.blk.inRange

/-- POP on a buffer that is not empty (R131): the element at the old HEAD is answered bit for bit, HEAD moves with the wrap, no slot
and nothing else is written. -/
def Obligations.PopLoads : Prop :=
  ∀ s : State, s.blk.ready → s.blk.EMPTY = false →
    ∃ b : Block s.params.aw s.params.w, exec .pop s = .next (s.withBlk b) ∧
      (∀ e, s.blk.slot s.blk.HEAD = some e → b.out.rspElem = e ∧ b.out.memRdata = e) ∧
      (s.blk.HEAD = s.blk.END → b.HEAD = s.blk.BEGIN) ∧
      (s.blk.HEAD ≠ s.blk.END → b.HEAD = s.blk.HEAD + 1#s.params.aw) ∧
      b.INITED = true ∧ b.FAULT = .noFault ∧
      b.BEGIN = s.blk.BEGIN ∧ b.END = s.blk.END ∧ b.TAIL = s.blk.TAIL ∧
      b.out.memWe = false ∧ b.out.memRe = true ∧ b.out.memAddr = s.blk.HEAD ∧
      s.blk.sameStorage b

/-- The flags after a POP (R131): FULL = 0, EMPTY = 1 exactly when one element was held, ROOMV one more, OCC one less. -/
def Obligations.PopFlagsAfter : Prop :=
  ∀ s t : State, s.blk.ready → s.blk.inRange → s.blk.EMPTY = false →
    exec .pop s = .next t →
      t.blk.FULL = false ∧ (t.blk.EMPTY = true ↔ s.blk.OCC = 1) ∧
      t.blk.ROOMV = s.blk.ROOMV + 1 ∧ t.blk.OCC = s.blk.OCC - 1 ∧ t.blk.inRange

/-- FLUSH (R150, R177): HEAD becomes TAIL, nothing else and no slot is written; the buffer is then empty, with ROOMV = SIZE - 1 under R25. -/
def Obligations.FlushEmpties : Prop :=
  ∀ s : State, s.blk.ready →
    ∃ b : Block s.params.aw s.params.w, exec .flush s = .next (s.withBlk b) ∧
      b.HEAD = s.blk.TAIL ∧ b.TAIL = s.blk.TAIL ∧ b.BEGIN = s.blk.BEGIN ∧ b.END = s.blk.END ∧
      b.INITED = true ∧ b.FAULT = .noFault ∧ s.blk.sameStorage b ∧ b.noAccess ∧
      b.EMPTY = true ∧ b.OCC = 0 ∧ b.contents = [] ∧
      (s.blk.inRange → b.FULL = false ∧ b.ROOMV = s.blk.SIZE - 1)

/-! ### Faults -/

/-- Every command but INIT raises Uninitialised while INITED = 0, and nothing but FAULT changes (R201, R206). -/
def Obligations.UninitialisedFault : Prop :=
  ∀ (i : Instr) (s : State), s.blk.FAULT = .noFault → s.blk.INITED = false → i.opcode ≠ .INIT →
    ∃ b : Block s.params.aw s.params.w, exec i s = .next (s.withBlk b) ∧
      b.FAULT = .uninitialised ∧ b.faultWires = 1#3 ∧
      s.blk.sameButFault b ∧ s.blk.sameStorage b ∧ b.noAccess

/-- PUSH on a full buffer raises PushOnFull: no slot, no cursor, nothing but FAULT changes (R203, R206). -/
def Obligations.PushOnFullFault : Prop :=
  ∀ (elem : Nat) (s : State), s.blk.ready → s.blk.FULL = true →
    ∃ b : Block s.params.aw s.params.w, exec (.push elem) s = .next (s.withBlk b) ∧
      b.FAULT = .pushOnFull ∧ b.faultWires = 3#3 ∧
      s.blk.sameButFault b ∧ s.blk.sameStorage b ∧ b.noAccess

/-- POP on an empty buffer raises PopOnEmpty: nothing is read, nothing but FAULT changes (R204, R206). -/
def Obligations.PopOnEmptyFault : Prop :=
  ∀ s : State, s.blk.ready → s.blk.EMPTY = true →
    ∃ b : Block s.params.aw s.params.w, exec .pop s = .next (s.withBlk b) ∧
      b.FAULT = .popOnEmpty ∧ b.faultWires = 4#3 ∧
      s.blk.sameButFault b ∧ s.blk.sameStorage b ∧ b.noAccess

/-- While FAULT != 0 every command, INIT included, changes nothing (R207). That it is a next state is the model's choice (log 8). -/
def Obligations.FailStop : Prop :=
  ∀ (i : Instr) (s : State), s.blk.FAULT ≠ .noFault →
    ∃ b : Block s.params.aw s.params.w, exec i s = .next (s.withBlk b) ∧
      s.blk.sameRegisters b ∧ s.blk.sameStorage b ∧ b.noAccess

/-- FAULT is sticky: a step that changes a FAULT other than 0 is a reset (R32, R207). -/
def Obligations.OnlyResetLeavesFault : Prop :=
  ∀ s t : State, step s = .next t → s.blk.FAULT ≠ .noFault → t.blk.FAULT ≠ s.blk.FAULT →
    ∃ rest, s.blk.inputs = .reset :: rest

/-- The priority of faults (R205): with FAULT != 0 nothing is executed; else which fault a command raises, and that it raises no
other (R200, R208). -/
def Obligations.FaultPriority : Prop :=
  ∀ (i : Instr) (s : State) (b : Block s.params.aw s.params.w),
    WellFormed s.params.aw s.params.w i = true → exec i s = .next (s.withBlk b) →
      (s.blk.FAULT ≠ .noFault → s.blk.sameRegisters b ∧ s.blk.sameStorage b ∧ b.noAccess) ∧
      (s.blk.FAULT = .noFault →
        (b.FAULT = .constructionError ↔
          ∃ base size, i = .init base size ∧
            (size < 2 ∨ (base : Int) + size - 1 > 2 ^ s.params.aw - 1)) ∧
        (b.FAULT = .uninitialised ↔ i.opcode ≠ .INIT ∧ s.blk.INITED = false) ∧
        (b.FAULT = .pushOnFull ↔ i.opcode = .PUSH ∧ s.blk.INITED = true ∧ s.blk.FULL = true) ∧
        (b.FAULT = .popOnEmpty ↔ i.opcode = .POP ∧ s.blk.INITED = true ∧ s.blk.EMPTY = true))

/-! ### Frames over all commands -/

/-- Only PUSH writes a slot, the one at the old TAIL; only POP reads one, the one at the old HEAD (R52). -/
def Obligations.StorageAccesses : Prop :=
  ∀ (i : Instr) (s : State) (b : Block s.params.aw s.params.w), exec i s = .next (s.withBlk b) →
    (b.out.memWe = true → i.opcode = .PUSH ∧ b.out.memAddr = s.blk.TAIL) ∧
    (b.out.memRe = true → i.opcode = .POP ∧ b.out.memAddr = s.blk.HEAD) ∧
    (∀ a, b.slot a ≠ s.blk.slot a → i.opcode = .PUSH ∧ a = s.blk.TAIL ∧ b.out.memWe = true)

/-- The write columns of R37: BEGIN, END and INITED are INIT's, HEAD is written by INIT, POP and FLUSH, TAIL by INIT and PUSH. -/
def Obligations.WriteSets : Prop :=
  ∀ (i : Instr) (s : State) (b : Block s.params.aw s.params.w), exec i s = .next (s.withBlk b) →
    (b.BEGIN ≠ s.blk.BEGIN ∨ b.END ≠ s.blk.END ∨ b.INITED ≠ s.blk.INITED → i.opcode = .INIT) ∧
    (b.HEAD ≠ s.blk.HEAD → i.opcode = .INIT ∨ i.opcode = .POP ∨ i.opcode = .FLUSH) ∧
    (b.TAIL ≠ s.blk.TAIL → i.opcode = .INIT ∨ i.opcode = .PUSH)

/-- The producer never writes HEAD, BEGIN or END, the consumer never writes TAIL, BEGIN, END or a slot (R210, R37). -/
def Obligations.OwnershipOfCursors : Prop :=
  ∀ (i : Instr) (s : State) (b : Block s.params.aw s.params.w), exec i s = .next (s.withBlk b) →
    (Agent.producer.mayIssue i.opcode = true →
      b.HEAD = s.blk.HEAD ∧ b.BEGIN = s.blk.BEGIN ∧ b.END = s.blk.END) ∧
    (Agent.consumer.mayIssue i.opcode = true →
      b.TAIL = s.blk.TAIL ∧ b.BEGIN = s.blk.BEGIN ∧ b.END = s.blk.END ∧ ∀ a, b.slot a = s.blk.slot a)

/-- Whoever is said to issue a command, the step is the same: ownership is not enforced (R211). -/
def Obligations.IssuerIgnored : Prop :=
  ∀ (s : State) (who who' : Agent) (p : CommandPorts s.params.aw s.params.w)
    (rest : List (Event s.params.aw s.params.w)),
    step (s.withBlk { s.blk with inputs := .present who p :: rest }) =
      step (s.withBlk { s.blk with inputs := .present who' p :: rest })

/-- Elements are opaque and the variants move alike (R160, R163, R165): two blocks of any variants and host parameters with the same
registers, given the same command but for the element pushed, end with the same registers and drive the same flag, count and
storage address and strobes, whatever their storage holds. -/
def Obligations.MovesAlikeWhateverTheElements : Prop :=
  ∀ (p : Params) (v : Variant) (order : ByteOrder) (sign : Bool)
    (b : Block p.aw p.w) (c : Block p.aw v.width) (i j : Instr),
    i.opcode = j.opcode → (i.opcode = .INIT → i = j) → b.sameRegisters c → b.draws = c.draws →
    ∃ (b' : Block p.aw p.w) (c' : Block p.aw v.width),
      exec i ⟨p, b⟩ = .next ⟨p, b'⟩ ∧
      exec j ⟨{ p with variant := v, slotByteOrder := order, elem8Signed := sign }, c⟩ =
        .next ⟨{ p with variant := v, slotByteOrder := order, elem8Signed := sign }, c'⟩ ∧
      b'.sameRegisters c' ∧ b'.out.rspFlag = c'.out.rspFlag ∧ b'.out.rspCount = c'.out.rspCount ∧
      b'.out.memAddr = c'.out.memAddr ∧ b'.out.memWe = c'.out.memWe ∧ b'.out.memRe = c'.out.memRe

/-! ### Invariants -/

/-- Every step keeps the invariant: the storage's canonical form, R25, the range of LENV, and that every held slot is written. -/
def Obligations.StepKeepsInv : Prop :=
  ∀ s t : State, s.Inv → step s = .next t → t.Inv

/-- The state after reset has the invariant. -/
def Obligations.ResetHasInv : Prop := State.reset.Inv

/-- Every command preserves the invariants of R25, and a re-INIT establishes them anew (R170). -/
def Obligations.CommandsPreserveRanges : Prop :=
  ∀ (i : Instr) (s t : State), (s.blk.INITED = true → s.blk.inRange) → exec i s = .next t →
    (t.blk.INITED = true → t.blk.inRange)

/-- The block never accesses a slot outside [BEGIN, END] (R53). -/
def Obligations.AccessesInsideRegion : Prop :=
  ∀ s t : State, s.Inv → step s = .next t → (t.blk.out.memWe = true ∨ t.blk.out.memRe = true) →
    t.blk.INITED = true ∧ t.blk.BEGIN ≤ t.blk.out.memAddr ∧ t.blk.out.memAddr ≤ t.blk.END

/-- POP never meets a slot without a value (R57): under the invariant the slot at HEAD was written, and its element is the answer. -/
def Obligations.PopFindsWrittenSlot : Prop :=
  ∀ s : State, s.Inv → s.blk.ready → s.blk.EMPTY = false →
    ∃ (e : Elem s.params.w) (b : Block s.params.aw s.params.w),
      s.blk.slot s.blk.HEAD = some e ∧ exec .pop s = .next (s.withBlk b) ∧ b.out.rspElem = e

/-! ### Positions, flags, counts -/

/-- `succ` and `pred` on the region (R26): their values, that both stay in the region, and that they undo each other. -/
def Obligations.SuccPred : Prop :=
  ∀ (aw w : Nat) (b : Block aw w) (p : SlotAddr aw), b.BEGIN ≤ p → p ≤ b.END →
    (p = b.END → b.succ p = b.BEGIN) ∧ (p ≠ b.END → (b.succ p).toNat = p.toNat + 1) ∧
    (p = b.BEGIN → b.pred p = b.END) ∧ (p ≠ b.BEGIN → ((b.pred p).toNat : Int) = (p.toNat : Int) - 1) ∧
    b.BEGIN ≤ b.succ p ∧ b.succ p ≤ b.END ∧ b.BEGIN ≤ b.pred p ∧ b.pred p ≤ b.END ∧
    b.pred (b.succ p) = p ∧ b.succ (b.pred p) = p

/-- The forms of the full condition agree (R112): the two-clause test, "TAIL is pred(HEAD)", "succ(TAIL) is HEAD", and the two-clause
test with HEAD - 1 taken modulo 2^AW. -/
def Obligations.FullThreeForms : Prop :=
  ∀ (aw w : Nat) (b : Block aw w), b.inRange →
    let twoClause : Prop :=
      (b.HEAD = b.BEGIN ∧ b.TAIL = b.END) ∨ (b.TAIL.toNat : Int) = (b.HEAD.toNat : Int) - 1
    (b.FULL = true ↔ twoClause) ∧
    (twoClause ↔ b.TAIL = b.pred b.HEAD) ∧
    (twoClause ↔ b.succ b.TAIL = b.HEAD) ∧
    (twoClause ↔ (b.HEAD = b.BEGIN ∧ b.TAIL = b.END) ∨ b.TAIL = b.HEAD - 1#aw)

/-- EMPTY and FULL are never both 1, both 0 when partly occupied, and with SIZE = 2 one of them is 1 (R30). -/
def Obligations.EmptyFullExclusive : Prop :=
  ∀ (aw w : Nat) (b : Block aw w), b.inRange →
    ¬ (b.EMPTY = true ∧ b.FULL = true) ∧
    (0 < b.OCC → b.OCC < b.SIZE - 1 → b.EMPTY = false ∧ b.FULL = false) ∧
    (b.SIZE = 2 → b.EMPTY = true ∨ b.FULL = true)

/-- ROOMV (R120, R121): its range, the tighter range of its first branch, and where its ends lie. -/
def Obligations.RoomRange : Prop :=
  ∀ (aw w : Nat) (b : Block aw w), b.inRange →
    0 ≤ b.ROOMV ∧ b.ROOMV ≤ b.SIZE - 1 ∧ (b.TAIL < b.HEAD → b.ROOMV ≤ b.SIZE - 2) ∧ b.ROOMV < 2 ^ aw ∧
    (b.ROOMV = 0 ↔ b.FULL = true) ∧ (b.ROOMV = b.SIZE - 1 ↔ b.EMPTY = true)

/-- ROOMV and LENV may be computed in AW-bit modular arithmetic, with the unsigned comparison (R125). -/
def Obligations.ModularArithmetic : Prop :=
  ∀ (aw w : Nat) (b : Block aw w), b.inRange →
    b.ROOMV = ((if b.TAIL.ult b.HEAD then b.HEAD - b.TAIL - 1#aw
                else (b.HEAD - b.TAIL) + (b.END - b.BEGIN)).toNat : Int) ∧
    b.LENV = ((b.END - b.BEGIN).toNat : Int)

/-- OCC (R124): the closed form, the range, where its ends lie. -/
def Obligations.OccupancyClosedForm : Prop :=
  ∀ (aw w : Nat) (b : Block aw w), b.inRange →
    b.OCC = b.LENV - b.ROOMV ∧
    b.OCC = (if b.TAIL.toNat < b.HEAD.toNat then ((b.TAIL.toNat : Int) - b.HEAD.toNat) + b.SIZE
             else (b.TAIL.toNat : Int) - b.HEAD.toNat) ∧
    0 ≤ b.OCC ∧ b.OCC ≤ b.SIZE - 1 ∧
    (b.OCC = 0 ↔ b.EMPTY = true) ∧ (b.OCC = b.SIZE - 1 ↔ b.FULL = true)

/-- The held slots (R124, R58, R53): OCC of them, from HEAD to pred(TAIL), all different, all in the region, TAIL not among them. -/
def Obligations.HeldSlots : Prop :=
  ∀ (aw w : Nat) (b : Block aw w), b.inRange →
    (b.heldSlots.length : Int) = b.OCC ∧ b.heldSlots.Nodup ∧
    (∀ a ∈ b.heldSlots, b.BEGIN ≤ a ∧ a ≤ b.END) ∧ b.TAIL ∉ b.heldSlots ∧
    (b.HEAD ≠ b.TAIL →
      b.heldSlots.head? = some b.HEAD ∧ b.heldSlots.getLast? = some (b.pred b.TAIL))

/-- The pseudo-command OCC (R90): LEN, then ROOM, and the host's difference is the occupancy. -/
def Obligations.OccupancyByPseudoCommand : Prop :=
  ∀ s : State, s.blk.ready → s.blk.inRange →
    ∃ t u : State, Pseudo.OCC.expand = [.len, .room] ∧
      exec .len s = .next t ∧ exec .room t = .next u ∧
      (Pseudo.occValue t.blk.out.rspCount.toNat u.blk.out.rspCount.toNat : Int) = s.blk.OCC

/-- The status wires (R35), at every step boundary, whatever FAULT holds: `inited` shows INITED and `fault` the code of FAULT (R32);
while INITED = 1, `empty` is HEAD == TAIL (R28) and `full` the two-clause test (R29), and where the commands execute they are what
IS_EMPTY and IS_FULL answer. -/
def Obligations.StatusWires : Prop :=
  ∀ s : State,
    s.blk.initedWire = s.blk.INITED ∧
    (s.blk.FAULT = .noFault → s.blk.faultWires = 0#3) ∧
    (s.blk.FAULT = .uninitialised → s.blk.faultWires = 1#3) ∧
    (s.blk.FAULT = .constructionError → s.blk.faultWires = 2#3) ∧
    (s.blk.FAULT = .pushOnFull → s.blk.faultWires = 3#3) ∧
    (s.blk.FAULT = .popOnEmpty → s.blk.faultWires = 4#3) ∧
    (s.blk.INITED = true →
      s.blk.emptyWire = s.blk.EMPTY ∧ s.blk.fullWire = s.blk.FULL ∧
      (s.blk.emptyWire = true ↔ s.blk.HEAD = s.blk.TAIL) ∧
      (s.blk.fullWire = true ↔
        (s.blk.HEAD = s.blk.BEGIN ∧ s.blk.TAIL = s.blk.END) ∨
          (s.blk.TAIL.toNat : Int) = (s.blk.HEAD.toNat : Int) - 1)) ∧
    (s.blk.ready →
      ∃ t u : State, exec .isEmpty s = .next t ∧ exec .isFull s = .next u ∧
        s.blk.emptyWire = t.blk.out.rspFlag ∧ s.blk.fullWire = u.blk.out.rspFlag)

/-! ### Sequences of commands -/

/-- The block is a bounded queue (R171): each command does to the content what it does to a queue of capacity SIZE - 1. -/
def Obligations.QueueRefinement : Prop :=
  ∀ s : State, s.blk.ready → s.blk.inRange →
    ((s.blk.contents.length : Int) = s.blk.OCC ∧ (s.blk.HEAD = s.blk.TAIL → s.blk.contents = [])) ∧
    (∀ base size : Nat, base < 2 ^ s.params.aw → size < 2 ^ s.params.aw → 2 ≤ size →
      base + size - 1 ≤ 2 ^ s.params.aw - 1 →
      ∃ b : Block s.params.aw s.params.w, exec (.init base size) s = .next (s.withBlk b) ∧
        b.ready ∧ b.contents = [] ∧ b.SIZE = size) ∧
    (∃ b : Block s.params.aw s.params.w, exec .flush s = .next (s.withBlk b) ∧
      b.ready ∧ b.contents = [] ∧ b.SIZE = s.blk.SIZE) ∧
    (∀ elem : Nat, (s.blk.contents.length : Int) < s.blk.SIZE - 1 →
      ∃ b : Block s.params.aw s.params.w, exec (.push elem) s = .next (s.withBlk b) ∧
        b.ready ∧ b.contents = s.blk.contents ++ [BitVec.ofNat s.params.w elem] ∧ b.SIZE = s.blk.SIZE) ∧
    (∀ e q, s.blk.contents = e :: q →
      ∃ b : Block s.params.aw s.params.w, exec .pop s = .next (s.withBlk b) ∧
        b.ready ∧ b.out.rspElem = e ∧ b.contents = q ∧ b.SIZE = s.blk.SIZE) ∧
    (∃ b : Block s.params.aw s.params.w, exec .isEmpty s = .next (s.withBlk b) ∧
      b.ready ∧ (b.out.rspFlag = true ↔ s.blk.contents = []) ∧ b.contents = s.blk.contents) ∧
    (∃ b : Block s.params.aw s.params.w, exec .isFull s = .next (s.withBlk b) ∧
      b.ready ∧ (b.out.rspFlag = true ↔ (s.blk.contents.length : Int) = s.blk.SIZE - 1) ∧
      b.contents = s.blk.contents) ∧
    (∃ b : Block s.params.aw s.params.w, exec .room s = .next (s.withBlk b) ∧
      b.ready ∧ (b.out.rspCount.toNat : Int) = s.blk.SIZE - 1 - s.blk.contents.length ∧
      b.contents = s.blk.contents) ∧
    (∃ b : Block s.params.aw s.params.w, exec .len s = .next (s.withBlk b) ∧
      b.ready ∧ (b.out.rspCount.toNat : Int) = s.blk.SIZE - 1 ∧ b.contents = s.blk.contents)

/-- FIFO order and data integrity (R172): along any commands without INIT and FLUSH that end without a fault, what was held and then
pushed is what was popped and is then held, in order and bit for bit; from an empty buffer the n-th POP returns the n-th PUSH. -/
def Obligations.FifoOrder : Prop :=
  ∀ (cmds : List Instr) (s t : State), s.blk.ready → s.blk.inRange →
    (∀ i ∈ cmds, i.opcode ≠ .INIT ∧ i.opcode ≠ .FLUSH) →
    runCommands cmds s = .next t → t.good →
      s.contents ++ pushedBy s.params.w cmds = poppedBy cmds s ++ t.contents ∧
      (s.blk.EMPTY = true →
        poppedBy cmds s = (pushedBy s.params.w cmds).take (poppedBy cmds s).length)

/-- Room accounting (R173): from an empty buffer, as INIT and FLUSH leave it, after k PUSH and j POP commands and no INIT or FLUSH,
ROOMV is (SIZE - 1) - (k - j) and OCC is k - j. -/
def Obligations.RoomAccounting : Prop :=
  ∀ (cmds : List Instr) (s t : State), s.blk.ready → s.blk.inRange → s.blk.EMPTY = true →
    (∀ i ∈ cmds, i.opcode ≠ .INIT ∧ i.opcode ≠ .FLUSH) →
    runCommands cmds s = .next t → t.good →
      t.blk.SIZE = s.blk.SIZE ∧ countOf .POP cmds ≤ countOf .PUSH cmds ∧
      t.blk.ROOMV = (t.blk.SIZE - 1) - ((countOf .PUSH cmds : Int) - countOf .POP cmds) ∧
      t.blk.OCC = (countOf .PUSH cmds : Int) - countOf .POP cmds

/-- After INIT (R174): IS_EMPTY answers true, IS_FULL false, ROOM size - 1, for every size INIT accepts. -/
def Obligations.AfterInitQueries : Prop :=
  ∀ (base size : Nat) (s : State), s.blk.FAULT = .noFault →
    base < 2 ^ s.params.aw → 2 ≤ size → size ≤ min (2 ^ s.params.aw - 1) (2 ^ s.params.aw - base) →
    ∃ t u v x : State, exec (.init base size) s = .next t ∧
      exec .isEmpty t = .next u ∧ u.blk.out.rspFlag = true ∧
      exec .isFull t = .next v ∧ v.blk.out.rspFlag = false ∧
      exec .room t = .next x ∧ (x.blk.out.rspCount.toNat : Int) = (size : Int) - 1

/-- Filling exactly (R175): up to ROOMV elements can be pushed without a fault, FULL is 1 exactly when ROOMV of them have been, and one
PUSH more raises PushOnFull. -/
def Obligations.FillingExactly : Prop :=
  ∀ (elems : List Nat) (s : State), s.blk.ready → s.blk.inRange → (elems.length : Int) ≤ s.blk.ROOMV →
    ∃ t : State, runCommands (elems.map Instr.push) s = .next t ∧ t.good ∧
      (t.blk.FULL = true ↔ (elems.length : Int) = s.blk.ROOMV) ∧
      ((elems.length : Int) = s.blk.ROOMV → ∀ e : Nat,
        ∃ u : State, exec (.push e) t = .next u ∧ u.blk.FAULT = .pushOnFull)

/-- Draining exactly (R176): up to OCC elements can be popped without a fault, EMPTY is 1 exactly when OCC of them have been, and one
POP more raises PopOnEmpty. -/
def Obligations.DrainingExactly : Prop :=
  ∀ (n : Nat) (s : State), s.blk.ready → s.blk.inRange → (n : Int) ≤ s.blk.OCC →
    ∃ t : State, runCommands (List.replicate n .pop) s = .next t ∧ t.good ∧
      (t.blk.EMPTY = true ↔ (n : Int) = s.blk.OCC) ∧
      ((n : Int) = s.blk.OCC → ∃ u : State, exec .pop t = .next u ∧ u.blk.FAULT = .popOnEmpty)

/-- Minimum size (R178): with two slots the buffer is empty or full; from empty a PUSH fills it, with ROOMV = 0, and the POP that
follows empties it. -/
def Obligations.MinimumSize : Prop :=
  ∀ s : State, s.blk.ready → s.blk.inRange → s.blk.SIZE = 2 →
    (s.blk.EMPTY = true ∨ s.blk.FULL = true) ∧
    (s.blk.EMPTY = true → ∀ e : Nat,
      ∃ t u : State, exec (.push e) s = .next t ∧ t.good ∧ t.blk.FULL = true ∧ t.blk.ROOMV = 0 ∧
        exec .pop t = .next u ∧ u.good ∧ u.blk.EMPTY = true ∧
        u.blk.out.rspElem.toNat = (elemOperand s.params.w e).toNat)

/-- Reachability (R179, R27): every pair of positions in the region is reached from INIT by PUSH and POP commands without a fault. -/
def Obligations.EveryPairReachable : Prop :=
  ∀ (base size h t : Nat) (s : State), s.blk.FAULT = .noFault →
    base < 2 ^ s.params.aw → size < 2 ^ s.params.aw → 2 ≤ size → base + size - 1 ≤ 2 ^ s.params.aw - 1 →
    base ≤ h → h ≤ base + size - 1 → base ≤ t → t ≤ base + size - 1 →
    ∃ (cmds : List Instr) (u : State), (∀ i ∈ cmds, i.opcode = .PUSH ∨ i.opcode = .POP) ∧
      runCommands (.init base size :: cmds) s = .next u ∧ u.good ∧
      u.blk.BEGIN.toNat = base ∧ u.blk.END.toNat = base + size - 1 ∧
      u.blk.HEAD.toNat = h ∧ u.blk.TAIL.toNat = t

/-- Producer stability (R180): the consumer's commands never lower ROOMV, and a producer that saw ROOMV = r issues r PUSH commands
without PushOnFull, however the consumer's commands are interleaved. -/
def Obligations.ProducerStability : Prop :=
  ∀ (cmds : List Instr) (s t : State), s.blk.ready → s.blk.inRange → runCommands cmds s = .next t →
    (issuedOnlyBy .consumer cmds → s.blk.ROOMV ≤ t.blk.ROOMV) ∧
    (issuedByContexts cmds → (countOf .PUSH cmds : Int) ≤ s.blk.ROOMV → t.blk.FAULT ≠ .pushOnFull)

/-- Consumer stability (R181): the producer's commands never lower OCC, and a consumer that saw a buffer with elements can POP after
any of the producer's commands that did not fault. -/
def Obligations.ConsumerStability : Prop :=
  ∀ (cmds : List Instr) (s t : State), s.blk.ready → s.blk.inRange → issuedOnlyBy .producer cmds →
    runCommands cmds s = .next t →
      s.blk.OCC ≤ t.blk.OCC ∧
      (s.blk.EMPTY = false → t.good → ∃ u : State, exec .pop t = .next u ∧ u.good)

/-- PUSH and POP commute away from the boundaries (R182), and at each boundary only one order is free of a fault. -/
def Obligations.PushPopCommute : Prop :=
  ∀ (e : Nat) (s : State), s.blk.ready → s.blk.inRange →
    ∃ a b c d : Block s.params.aw s.params.w,
      exec (.push e) s = .next (s.withBlk a) ∧ exec .pop (s.withBlk a) = .next (s.withBlk b) ∧
      exec .pop s = .next (s.withBlk c) ∧ exec (.push e) (s.withBlk c) = .next (s.withBlk d) ∧
      (0 < s.blk.OCC → s.blk.OCC < s.blk.SIZE - 1 →
        b.FAULT = .noFault ∧ b.sameRegisters d ∧ b.sameStorage d ∧ b.out.rspElem = c.out.rspElem) ∧
      (s.blk.OCC = 0 →
        b.FAULT = .noFault ∧ b.out.rspElem = BitVec.ofNat s.params.w e ∧ c.FAULT = .popOnEmpty) ∧
      (s.blk.OCC = s.blk.SIZE - 1 → d.FAULT = .noFault ∧ a.FAULT = .pushOnFull)

/-- The two halves of PUSH and of POP in the order of R62: the other context's whole command between them does what it does when the
two commands run one after the other, in the order of their cursor updates (R183). -/
def Obligations.HalvesInterleave : Prop :=
  ∀ (aw w : Nat) (b : Block aw w) (e : Elem w), b.ready → b.inRange → b.FULL = false → b.EMPTY = false →
    ((b.pushStore e).popCmd.pushAdvance.sameRegisters (b.popCmd.pushCmd e) ∧
      (b.pushStore e).popCmd.pushAdvance.sameStorage (b.popCmd.pushCmd e) ∧
      (b.pushStore e).popCmd.out.rspElem = b.popCmd.out.rspElem) ∧
    ((b.popLoad.pushCmd e).popAdvance.sameRegisters (b.pushCmd e).popCmd ∧
      (b.popLoad.pushCmd e).popAdvance.sameStorage (b.pushCmd e).popCmd ∧
      b.popLoad.out.rspElem = (b.pushCmd e).popCmd.out.rspElem)
end

