-- ==== Sys2Proof/Laws/State.lean ====
section
/-! SUPPORT. Every field of a block after every update: true by definition, so that no later proof unfolds a record update. -/

namespace Sys2Proof.Machine

@[simp] theorem State.withBlk_params (s : State) (b : Block s.params.aw s.params.w) : (s.withBlk b).params = s.params := rfl
@[simp] theorem State.withBlk_blk (s : State) (b : Block s.params.aw s.params.w) : (s.withBlk b).blk = b := rfl
@[simp] theorem State.withBlk_self (s : State) : s.withBlk s.blk = s := rfl
@[simp] theorem State.withBlk_withBlk (s : State) (b c : Block s.params.aw s.params.w) :
    (s.withBlk b).withBlk c = s.withBlk c := rfl

variable {aw w : Nat} (b : Block aw w)

@[simp] theorem Block.quiet_INITED : b.quiet.INITED = b.INITED := rfl
@[simp] theorem Block.quiet_FAULT : b.quiet.FAULT = b.FAULT := rfl
@[simp] theorem Block.quiet_BEGIN : b.quiet.BEGIN = b.BEGIN := rfl
@[simp] theorem Block.quiet_END : b.quiet.END = b.END := rfl
@[simp] theorem Block.quiet_HEAD : b.quiet.HEAD = b.HEAD := rfl
@[simp] theorem Block.quiet_TAIL : b.quiet.TAIL = b.TAIL := rfl
@[simp] theorem Block.quiet_MEM : b.quiet.MEM = b.MEM := rfl
@[simp] theorem Block.quiet_out : b.quiet.out = Outputs.undriven aw w b.draws := rfl
@[simp] theorem Block.quiet_draws : b.quiet.draws = b.draws + 1 := rfl
@[simp] theorem Block.quiet_epoch : b.quiet.epoch = b.epoch := rfl
@[simp] theorem Block.quiet_inputs : b.quiet.inputs = b.inputs := rfl

@[simp] theorem Block.answerFlag_INITED (v : Bool) : (b.answerFlag v).INITED = b.INITED := rfl
@[simp] theorem Block.answerFlag_FAULT (v : Bool) : (b.answerFlag v).FAULT = b.FAULT := rfl
@[simp] theorem Block.answerFlag_BEGIN (v : Bool) : (b.answerFlag v).BEGIN = b.BEGIN := rfl
@[simp] theorem Block.answerFlag_END (v : Bool) : (b.answerFlag v).END = b.END := rfl
@[simp] theorem Block.answerFlag_HEAD (v : Bool) : (b.answerFlag v).HEAD = b.HEAD := rfl
@[simp] theorem Block.answerFlag_TAIL (v : Bool) : (b.answerFlag v).TAIL = b.TAIL := rfl
@[simp] theorem Block.answerFlag_MEM (v : Bool) : (b.answerFlag v).MEM = b.MEM := rfl
@[simp] theorem Block.answerFlag_out (v : Bool) : (b.answerFlag v).out = { Outputs.undriven aw w b.draws with rspFlag := v } := rfl
@[simp] theorem Block.answerFlag_draws (v : Bool) : (b.answerFlag v).draws = b.draws + 1 := rfl
@[simp] theorem Block.answerFlag_epoch (v : Bool) : (b.answerFlag v).epoch = b.epoch := rfl
@[simp] theorem Block.answerFlag_inputs (v : Bool) : (b.answerFlag v).inputs = b.inputs := rfl

@[simp] theorem Block.answerCount_INITED (v : BitVec aw) : (b.answerCount v).INITED = b.INITED := rfl
@[simp] theorem Block.answerCount_FAULT (v : BitVec aw) : (b.answerCount v).FAULT = b.FAULT := rfl
@[simp] theorem Block.answerCount_BEGIN (v : BitVec aw) : (b.answerCount v).BEGIN = b.BEGIN := rfl
@[simp] theorem Block.answerCount_END (v : BitVec aw) : (b.answerCount v).END = b.END := rfl
@[simp] theorem Block.answerCount_HEAD (v : BitVec aw) : (b.answerCount v).HEAD = b.HEAD := rfl
@[simp] theorem Block.answerCount_TAIL (v : BitVec aw) : (b.answerCount v).TAIL = b.TAIL := rfl
@[simp] theorem Block.answerCount_MEM (v : BitVec aw) : (b.answerCount v).MEM = b.MEM := rfl
@[simp] theorem Block.answerCount_out (v : BitVec aw) : (b.answerCount v).out = { Outputs.undriven aw w b.draws with rspCount := v } := rfl
@[simp] theorem Block.answerCount_draws (v : BitVec aw) : (b.answerCount v).draws = b.draws + 1 := rfl
@[simp] theorem Block.answerCount_epoch (v : BitVec aw) : (b.answerCount v).epoch = b.epoch := rfl
@[simp] theorem Block.answerCount_inputs (v : BitVec aw) : (b.answerCount v).inputs = b.inputs := rfl

@[simp] theorem Block.storeSlot_INITED (a : SlotAddr aw) (v : Elem w) : (b.storeSlot a v).INITED = b.INITED := rfl
@[simp] theorem Block.storeSlot_FAULT (a : SlotAddr aw) (v : Elem w) : (b.storeSlot a v).FAULT = b.FAULT := rfl
@[simp] theorem Block.storeSlot_BEGIN (a : SlotAddr aw) (v : Elem w) : (b.storeSlot a v).BEGIN = b.BEGIN := rfl
@[simp] theorem Block.storeSlot_END (a : SlotAddr aw) (v : Elem w) : (b.storeSlot a v).END = b.END := rfl
@[simp] theorem Block.storeSlot_HEAD (a : SlotAddr aw) (v : Elem w) : (b.storeSlot a v).HEAD = b.HEAD := rfl
@[simp] theorem Block.storeSlot_TAIL (a : SlotAddr aw) (v : Elem w) : (b.storeSlot a v).TAIL = b.TAIL := rfl
@[simp] theorem Block.storeSlot_MEM (a : SlotAddr aw) (v : Elem w) : (b.storeSlot a v).MEM = b.MEM.write a.toNat v := rfl
@[simp] theorem Block.storeSlot_out (a : SlotAddr aw) (v : Elem w) : (b.storeSlot a v).out = { Outputs.undriven aw w b.draws with memAddr := a, memWe := true, memWdata := v } := rfl
@[simp] theorem Block.storeSlot_draws (a : SlotAddr aw) (v : Elem w) : (b.storeSlot a v).draws = b.draws + 1 := rfl
@[simp] theorem Block.storeSlot_epoch (a : SlotAddr aw) (v : Elem w) : (b.storeSlot a v).epoch = b.epoch := rfl
@[simp] theorem Block.storeSlot_inputs (a : SlotAddr aw) (v : Elem w) : (b.storeSlot a v).inputs = b.inputs := rfl

@[simp] theorem Block.loadSlot_INITED (a : SlotAddr aw) : (b.loadSlot a).INITED = b.INITED := rfl
@[simp] theorem Block.loadSlot_FAULT (a : SlotAddr aw) : (b.loadSlot a).FAULT = b.FAULT := rfl
@[simp] theorem Block.loadSlot_BEGIN (a : SlotAddr aw) : (b.loadSlot a).BEGIN = b.BEGIN := rfl
@[simp] theorem Block.loadSlot_END (a : SlotAddr aw) : (b.loadSlot a).END = b.END := rfl
@[simp] theorem Block.loadSlot_HEAD (a : SlotAddr aw) : (b.loadSlot a).HEAD = b.HEAD := rfl
@[simp] theorem Block.loadSlot_TAIL (a : SlotAddr aw) : (b.loadSlot a).TAIL = b.TAIL := rfl
@[simp] theorem Block.loadSlot_MEM (a : SlotAddr aw) : (b.loadSlot a).MEM = b.MEM := rfl
@[simp] theorem Block.loadSlot_out (a : SlotAddr aw) : (b.loadSlot a).out = { Outputs.undriven aw w b.draws with
      rspElem := b.slotValue a, memAddr := a, memRe := true, memRdata := b.slotValue a } := rfl
@[simp] theorem Block.loadSlot_draws (a : SlotAddr aw) : (b.loadSlot a).draws = b.draws + 1 := rfl
@[simp] theorem Block.loadSlot_epoch (a : SlotAddr aw) : (b.loadSlot a).epoch = b.epoch := rfl
@[simp] theorem Block.loadSlot_inputs (a : SlotAddr aw) : (b.loadSlot a).inputs = b.inputs := rfl

@[simp] theorem Block.setHead_INITED (p : SlotAddr aw) : (b.setHead p).INITED = b.INITED := rfl
@[simp] theorem Block.setHead_FAULT (p : SlotAddr aw) : (b.setHead p).FAULT = b.FAULT := rfl
@[simp] theorem Block.setHead_BEGIN (p : SlotAddr aw) : (b.setHead p).BEGIN = b.BEGIN := rfl
@[simp] theorem Block.setHead_END (p : SlotAddr aw) : (b.setHead p).END = b.END := rfl
@[simp] theorem Block.setHead_HEAD (p : SlotAddr aw) : (b.setHead p).HEAD = p := rfl
@[simp] theorem Block.setHead_TAIL (p : SlotAddr aw) : (b.setHead p).TAIL = b.TAIL := rfl
@[simp] theorem Block.setHead_MEM (p : SlotAddr aw) : (b.setHead p).MEM = b.MEM := rfl
@[simp] theorem Block.setHead_out (p : SlotAddr aw) : (b.setHead p).out = b.out := rfl
@[simp] theorem Block.setHead_draws (p : SlotAddr aw) : (b.setHead p).draws = b.draws := rfl
@[simp] theorem Block.setHead_epoch (p : SlotAddr aw) : (b.setHead p).epoch = b.epoch := rfl
@[simp] theorem Block.setHead_inputs (p : SlotAddr aw) : (b.setHead p).inputs = b.inputs := rfl

@[simp] theorem Block.setTail_INITED (p : SlotAddr aw) : (b.setTail p).INITED = b.INITED := rfl
@[simp] theorem Block.setTail_FAULT (p : SlotAddr aw) : (b.setTail p).FAULT = b.FAULT := rfl
@[simp] theorem Block.setTail_BEGIN (p : SlotAddr aw) : (b.setTail p).BEGIN = b.BEGIN := rfl
@[simp] theorem Block.setTail_END (p : SlotAddr aw) : (b.setTail p).END = b.END := rfl
@[simp] theorem Block.setTail_HEAD (p : SlotAddr aw) : (b.setTail p).HEAD = b.HEAD := rfl
@[simp] theorem Block.setTail_TAIL (p : SlotAddr aw) : (b.setTail p).TAIL = p := rfl
@[simp] theorem Block.setTail_MEM (p : SlotAddr aw) : (b.setTail p).MEM = b.MEM := rfl
@[simp] theorem Block.setTail_out (p : SlotAddr aw) : (b.setTail p).out = b.out := rfl
@[simp] theorem Block.setTail_draws (p : SlotAddr aw) : (b.setTail p).draws = b.draws := rfl
@[simp] theorem Block.setTail_epoch (p : SlotAddr aw) : (b.setTail p).epoch = b.epoch := rfl
@[simp] theorem Block.setTail_inputs (p : SlotAddr aw) : (b.setTail p).inputs = b.inputs := rfl

@[simp] theorem Block.raise_INITED (f : FaultCode) : (b.raise f).INITED = b.INITED := rfl
@[simp] theorem Block.raise_FAULT (f : FaultCode) : (b.raise f).FAULT = f := rfl
@[simp] theorem Block.raise_BEGIN (f : FaultCode) : (b.raise f).BEGIN = b.BEGIN := rfl
@[simp] theorem Block.raise_END (f : FaultCode) : (b.raise f).END = b.END := rfl
@[simp] theorem Block.raise_HEAD (f : FaultCode) : (b.raise f).HEAD = b.HEAD := rfl
@[simp] theorem Block.raise_TAIL (f : FaultCode) : (b.raise f).TAIL = b.TAIL := rfl
@[simp] theorem Block.raise_MEM (f : FaultCode) : (b.raise f).MEM = b.MEM := rfl
@[simp] theorem Block.raise_out (f : FaultCode) : (b.raise f).out = Outputs.undriven aw w b.draws := rfl
@[simp] theorem Block.raise_draws (f : FaultCode) : (b.raise f).draws = b.draws + 1 := rfl
@[simp] theorem Block.raise_epoch (f : FaultCode) : (b.raise f).epoch = b.epoch := rfl
@[simp] theorem Block.raise_inputs (f : FaultCode) : (b.raise f).inputs = b.inputs := rfl

@[simp] theorem Block.takeReset_INITED : b.takeReset.INITED = false := rfl
@[simp] theorem Block.takeReset_FAULT : b.takeReset.FAULT = .noFault := rfl
@[simp] theorem Block.takeReset_BEGIN : b.takeReset.BEGIN = Config.openBits .beginReg b.draws aw := rfl
@[simp] theorem Block.takeReset_END : b.takeReset.END = Config.openBits .endReg b.draws aw := rfl
@[simp] theorem Block.takeReset_HEAD : b.takeReset.HEAD = Config.openBits .headReg b.draws aw := rfl
@[simp] theorem Block.takeReset_TAIL : b.takeReset.TAIL = Config.openBits .tailReg b.draws aw := rfl
@[simp] theorem Block.takeReset_MEM : b.takeReset.MEM = [] := rfl
@[simp] theorem Block.takeReset_out : b.takeReset.out = Outputs.undriven aw w b.draws := rfl
@[simp] theorem Block.takeReset_draws : b.takeReset.draws = b.draws + 1 := rfl
@[simp] theorem Block.takeReset_epoch : b.takeReset.epoch = b.epoch + 1 := rfl
@[simp] theorem Block.takeReset_inputs : b.takeReset.inputs = b.inputs := rfl

@[simp] theorem Block.install_INITED (base size : BitVec aw) : (b.install base size).INITED = true := rfl
@[simp] theorem Block.install_FAULT (base size : BitVec aw) : (b.install base size).FAULT = b.FAULT := rfl
@[simp] theorem Block.install_BEGIN (base size : BitVec aw) : (b.install base size).BEGIN = base := rfl
@[simp] theorem Block.install_END (base size : BitVec aw) : (b.install base size).END = base + size - 1#aw := rfl
@[simp] theorem Block.install_HEAD (base size : BitVec aw) : (b.install base size).HEAD = base := rfl
@[simp] theorem Block.install_TAIL (base size : BitVec aw) : (b.install base size).TAIL = base := rfl
@[simp] theorem Block.install_MEM (base size : BitVec aw) : (b.install base size).MEM = b.MEM := rfl
@[simp] theorem Block.install_out (base size : BitVec aw) : (b.install base size).out = Outputs.undriven aw w b.draws := rfl
@[simp] theorem Block.install_draws (base size : BitVec aw) : (b.install base size).draws = b.draws + 1 := rfl
@[simp] theorem Block.install_epoch (base size : BitVec aw) : (b.install base size).epoch = b.epoch := rfl
@[simp] theorem Block.install_inputs (base size : BitVec aw) : (b.install base size).inputs = b.inputs := rfl

@[simp] theorem Block.takeInput_INITED : b.takeInput.INITED = b.INITED := rfl
@[simp] theorem Block.takeInput_FAULT : b.takeInput.FAULT = b.FAULT := rfl
@[simp] theorem Block.takeInput_BEGIN : b.takeInput.BEGIN = b.BEGIN := rfl
@[simp] theorem Block.takeInput_END : b.takeInput.END = b.END := rfl
@[simp] theorem Block.takeInput_HEAD : b.takeInput.HEAD = b.HEAD := rfl
@[simp] theorem Block.takeInput_TAIL : b.takeInput.TAIL = b.TAIL := rfl
@[simp] theorem Block.takeInput_MEM : b.takeInput.MEM = b.MEM := rfl
@[simp] theorem Block.takeInput_out : b.takeInput.out = b.out := rfl
@[simp] theorem Block.takeInput_draws : b.takeInput.draws = b.draws := rfl
@[simp] theorem Block.takeInput_epoch : b.takeInput.epoch = b.epoch := rfl
@[simp] theorem Block.takeInput_inputs : b.takeInput.inputs = b.inputs.tail := rfl

@[simp] theorem Block.presentNext_INITED (e : Event aw w) : (b.presentNext e).INITED = b.INITED := rfl
@[simp] theorem Block.presentNext_FAULT (e : Event aw w) : (b.presentNext e).FAULT = b.FAULT := rfl
@[simp] theorem Block.presentNext_BEGIN (e : Event aw w) : (b.presentNext e).BEGIN = b.BEGIN := rfl
@[simp] theorem Block.presentNext_END (e : Event aw w) : (b.presentNext e).END = b.END := rfl
@[simp] theorem Block.presentNext_HEAD (e : Event aw w) : (b.presentNext e).HEAD = b.HEAD := rfl
@[simp] theorem Block.presentNext_TAIL (e : Event aw w) : (b.presentNext e).TAIL = b.TAIL := rfl
@[simp] theorem Block.presentNext_MEM (e : Event aw w) : (b.presentNext e).MEM = b.MEM := rfl
@[simp] theorem Block.presentNext_out (e : Event aw w) : (b.presentNext e).out = b.out := rfl
@[simp] theorem Block.presentNext_draws (e : Event aw w) : (b.presentNext e).draws = b.draws := rfl
@[simp] theorem Block.presentNext_epoch (e : Event aw w) : (b.presentNext e).epoch = b.epoch := rfl
@[simp] theorem Block.presentNext_inputs (e : Event aw w) : (b.presentNext e).inputs = e :: b.inputs := rfl

@[simp] theorem Outputs.undriven_memWe (draw : Nat) : (Outputs.undriven aw w draw).memWe = false := rfl
@[simp] theorem Outputs.undriven_memRe (draw : Nat) : (Outputs.undriven aw w draw).memRe = false := rfl

end Sys2Proof.Machine
end

