-- ==== Sys2Proof/Laws/Ops.lean ====
section
/-! SUPPORT. What the shared operations can do, said once for each. -/

namespace Sys2Proof.Machine

variable {aw w : Nat}

/-- While FAULT = 0 the first test lets the command run (R88). -/
theorem Block.unlessFaulted_noFault {b : Block aw w} (h : b.FAULT = .noFault) (k : Block aw w → Block aw w) :
    b.unlessFaulted k = k b := if_pos h

/-- While FAULT != 0 nothing happens (R207). -/
theorem Block.unlessFaulted_fault {b : Block aw w} (h : b.FAULT ≠ .noFault) (k : Block aw w → Block aw w) :
    b.unlessFaulted k = b.quiet := if_neg h

/-- All that a command behind both tests can do: it is stopped by FAULT, it raises Uninitialised, or it runs. -/
theorem Block.whenReady_cases (b : Block aw w) (k : Block aw w → Block aw w) :
    (b.FAULT ≠ .noFault ∧ b.whenReady k = b.quiet) ∨
    (b.FAULT = .noFault ∧ b.INITED = false ∧ b.whenReady k = b.raise .uninitialised) ∨
    (b.FAULT = .noFault ∧ b.INITED = true ∧ b.whenReady k = k b) := by
  unfold Block.whenReady
  by_cases hf : b.FAULT = .noFault
  · rw [Block.unlessFaulted_noFault hf]
    cases hi : b.INITED <;> simp [hf]
  · exact .inl ⟨hf, Block.unlessFaulted_fault hf _⟩

theorem Block.whenReady_fault {b : Block aw w} (h : b.FAULT ≠ .noFault) (k : Block aw w → Block aw w) :
    b.whenReady k = b.quiet := Block.unlessFaulted_fault h _

theorem Block.whenReady_uninit {b : Block aw w} (hf : b.FAULT = .noFault) (hi : b.INITED = false)
    (k : Block aw w → Block aw w) : b.whenReady k = b.raise .uninitialised := by
  rw [Block.whenReady, Block.unlessFaulted_noFault hf]; simp [hi]

theorem Block.whenReady_ready {b : Block aw w} (hi : b.INITED = true) (hf : b.FAULT = .noFault)
    (k : Block aw w → Block aw w) : b.whenReady k = k b := by
  rw [Block.whenReady, Block.unlessFaulted_noFault hf]; simp [hi]

/-- All that INIT can do. -/
theorem Block.initCmd_cases (b : Block aw w) (base size : BitVec aw) :
    (b.FAULT ≠ .noFault ∧ b.initCmd base size = b.quiet) ∨
    (b.FAULT = .noFault ∧ initRejects base size ∧ b.initCmd base size = b.raise .constructionError) ∨
    (b.FAULT = .noFault ∧ ¬ initRejects base size ∧ b.initCmd base size = b.install base size) := by
  unfold Block.initCmd
  by_cases hf : b.FAULT = .noFault
  · rw [Block.unlessFaulted_noFault hf]
    by_cases hr : initRejects base size
    · exact .inr (.inl ⟨hf, hr, if_pos hr⟩)
    · exact .inr (.inr ⟨hf, hr, if_neg hr⟩)
  · exact .inl ⟨hf, Block.unlessFaulted_fault hf _⟩

/-- Every step is one of these: no command, reset, or the presented command. -/
theorem step_cases {s t : State} (h : step s = .next t) :
    (s.blk.nextInput = .idle ∧ t = s.withBlk s.blk.takeInput.quiet) ∨
    (s.blk.nextInput = .reset ∧ t = s.withBlk s.blk.takeInput.takeReset) ∨
    (∃ p, s.blk.nextInput = .command p ∧ exec (decode p) s.takeInput = .next t) := by
  unfold step at h
  split at h
  · exact .inl ⟨‹_›, (Host.Outcome.next.inj h).symm⟩
  · exact .inr (.inl ⟨‹_›, (Host.Outcome.next.inj h).symm⟩)
  · exact .inr (.inr ⟨_, ‹_›, h⟩)

/-- What a list of events makes the next input. -/
theorem Block.nextInput_cases (b : Block aw w) :
    (b.inputs = [] ∧ b.nextInput = .idle) ∨
    (∃ rest, b.inputs = .reset :: rest ∧ b.nextInput = .reset) ∨
    (∃ who p rest, b.inputs = .present who p :: rest ∧ p.valid = false ∧ b.nextInput = .idle) ∨
    (∃ who p rest, b.inputs = .present who p :: rest ∧ p.valid = true ∧ b.nextInput = .command p) := by
  unfold Block.nextInput
  split
  · exact .inl ⟨‹_›, rfl⟩
  · exact .inr (.inl ⟨_, ‹_›, rfl⟩)
  · next who p rest h =>
    cases hv : p.valid
    · exact .inr (.inr (.inl ⟨who, p, rest, h, hv, rfl⟩))
    · exact .inr (.inr (.inr ⟨who, p, rest, h, hv, rfl⟩))

end Sys2Proof.Machine
end

