-- ==== Sys2Proof/Laws/Commands.lean ====
section
/-! SUPPORT. What a command can do, said once: `Block.Effect i b c` lists every way from the block `b` to the block `c` by the
command `i`, and `exec_effect` says that `exec` takes one of them. -/

namespace Sys2Proof.Machine

variable {aw w : Nat}

/-- Every way a command can end (30_encoding.md R88, 60_exceptions.md R205). -/
inductive Block.Effect : Instr → Block aw w → Block aw w → Prop where
  /-- FAULT != 0: nothing happens (R207). -/
  | stopped (i : Instr) {b : Block aw w} (hf : b.FAULT ≠ .noFault) : Effect i b b.quiet
  /-- INITED = 0 (R201). -/
  | uninitialised {i : Instr} {b : Block aw w} (hf : b.FAULT = .noFault) (hi : b.INITED = false) (ho : i.opcode ≠ .INIT) :
      Effect i b (b.raise .uninitialised)
  /-- an INIT that is rejected (R202). -/
  | rejected {base size : Nat} {b : Block aw w} (hf : b.FAULT = .noFault)
      (hr : initRejects (addrOperand aw base) (addrOperand aw size)) :
      Effect (.init base size) b (b.raise .constructionError)
  /-- an INIT that installs its region (R100). -/
  | installed {base size : Nat} {b : Block aw w} (hf : b.FAULT = .noFault)
      (hr : ¬ initRejects (addrOperand aw base) (addrOperand aw size)) :
      Effect (.init base size) b (b.install (addrOperand aw base) (addrOperand aw size))
  /-- IS_EMPTY (R110). -/
  | isEmpty {b : Block aw w} (hr : b.INITED = true) (hf : b.FAULT = .noFault) : Effect .isEmpty b (b.answerFlag b.EMPTY)
  /-- IS_FULL (R111). -/
  | isFull {b : Block aw w} (hr : b.INITED = true) (hf : b.FAULT = .noFault) : Effect .isFull b (b.answerFlag b.FULL)
  /-- ROOM (R121). -/
  | room {b : Block aw w} (hr : b.INITED = true) (hf : b.FAULT = .noFault) :
      Effect .room b (b.answerCount (countPort aw b.ROOMV))
  /-- LEN (R123). -/
  | len {b : Block aw w} (hr : b.INITED = true) (hf : b.FAULT = .noFault) :
      Effect .len b (b.answerCount (countPort aw b.LENV))
  /-- PUSH on a full buffer (R203). -/
  | pushOnFull {elem : Nat} {b : Block aw w} (hr : b.INITED = true) (hf : b.FAULT = .noFault) (hF : b.FULL = true) :
      Effect (.push elem) b (b.raise .pushOnFull)
  /-- PUSH (R130). -/
  | pushed {elem : Nat} {b : Block aw w} (hr : b.INITED = true) (hf : b.FAULT = .noFault) (hF : b.FULL = false) :
      Effect (.push elem) b (b.pushStore (elemOperand w elem)).pushAdvance
  /-- POP on an empty buffer (R204). -/
  | popOnEmpty {b : Block aw w} (hr : b.INITED = true) (hf : b.FAULT = .noFault) (hE : b.EMPTY = true) :
      Effect .pop b (b.raise .popOnEmpty)
  /-- POP (R131). -/
  | popped {b : Block aw w} (hr : b.INITED = true) (hf : b.FAULT = .noFault) (hE : b.EMPTY = false) :
      Effect .pop b b.popLoad.popAdvance
  /-- FLUSH (R150). -/
  | flushed {b : Block aw w} (hr : b.INITED = true) (hf : b.FAULT = .noFault) :
      Effect .flush b (b.quiet.setHead b.TAIL)

/-- A command behind both tests, once its own meaning is known to be an effect of a ready block. -/
theorem Block.Effect.of_whenReady {i : Instr} (b : Block aw w) (k : Block aw w → Block aw w) (ho : i.opcode ≠ .INIT)
    (hk : b.INITED = true → b.FAULT = .noFault → Block.Effect i b (k b)) : Block.Effect i b (b.whenReady k) := by
  rcases b.whenReady_cases k with ⟨hf, h⟩ | ⟨hf, hi, h⟩ | ⟨hf, hi, h⟩ <;> rw [h]
  · exact .stopped i hf
  · exact .uninitialised hf hi ho
  · exact hk hi hf

/-- The block a command leaves, as a function of the block alone: it lets a proof about a sequence of commands stay at one pair of
widths. -/
def Block.after (i : Instr) (b : Block aw w) : Block aw w :=
  match i with
  | .init base size => b.initCmd (addrOperand aw base) (addrOperand aw size)
  | .isEmpty => b.isEmptyCmd
  | .isFull => b.isFullCmd
  | .room => b.roomCmd
  | .len => b.lenCmd
  | .push elem => b.pushCmd (elemOperand w elem)
  | .pop => b.popCmd
  | .flush => b.flushCmd

/-- `exec` is `Block.after` on the machine's block. -/
theorem exec_eq_after (i : Instr) (s : State) : exec i s = .next (s.withBlk (s.blk.after i)) := by
  cases i <;> rfl

/-- `Block.after` is one of the effects. -/
theorem Block.after_effect (i : Instr) (b : Block aw w) : Block.Effect i b (b.after i) := by
  cases i with
  | init base size =>
    show Block.Effect _ b (b.initCmd _ _)
    rcases b.initCmd_cases (addrOperand aw base) (addrOperand aw size) with ⟨hf, h⟩ | ⟨hf, hr, h⟩ | ⟨hf, hr, h⟩ <;> rw [h]
    · exact .stopped _ hf
    · exact .rejected hf hr
    · exact .installed hf hr
  | isEmpty => exact .of_whenReady b (fun b => b.answerFlag b.EMPTY) (by decide) .isEmpty
  | isFull => exact .of_whenReady b (fun b => b.answerFlag b.FULL) (by decide) .isFull
  | room => exact .of_whenReady b (fun b => b.answerCount (countPort aw b.ROOMV)) (by decide) .room
  | len => exact .of_whenReady b (fun b => b.answerCount (countPort aw b.LENV)) (by decide) .len
  | push elem =>
    refine .of_whenReady b
      (fun b => if b.FULL then b.raise .pushOnFull else (b.pushStore (elemOperand w elem)).pushAdvance)
      (by simp [Instr.opcode]) fun hi hf => ?_
    cases hF : b.FULL
    · exact .pushed hi hf hF
    · exact .pushOnFull hi hf hF
  | pop =>
    refine .of_whenReady b (fun b => if b.EMPTY then b.raise .popOnEmpty else b.popLoad.popAdvance) (by decide)
      fun hi hf => ?_
    cases hE : b.EMPTY
    · exact .popped hi hf hE
    · exact .popOnEmpty hi hf hE
  | flush => exact .of_whenReady b (fun b => b.quiet.setHead b.TAIL) (by decide) .flushed

/-- `exec` answers a next state, by one of the effects. -/
theorem exec_effect (i : Instr) (s : State) :
    ∃ b : Block s.params.aw s.params.w, exec i s = .next (s.withBlk b) ∧ Block.Effect i s.blk b :=
  ⟨_, exec_eq_after i s, s.blk.after_effect i⟩

theorem State.withBlk_inj {s : State} {b c : Block s.params.aw s.params.w} (h : s.withBlk b = s.withBlk c) : b = c := by
  simpa [State.withBlk] using h

/-- The block a command leaves, when it is given, is one of its effects. -/
theorem effect_of_exec {i : Instr} {s : State} {b : Block s.params.aw s.params.w}
    (h : exec i s = .next (s.withBlk b)) : Block.Effect i s.blk b := by
  obtain ⟨c, hc, he⟩ := exec_effect i s
  rw [hc] at h
  exact State.withBlk_inj (Host.Outcome.next.inj h) ▸ he

/-- Every state a command leaves is the state before it with another block. -/
theorem exec_next {i : Instr} {s t : State} (h : exec i s = .next t) :
    ∃ b : Block s.params.aw s.params.w, t = s.withBlk b ∧ Block.Effect i s.blk b := by
  obtain ⟨c, hc, he⟩ := exec_effect i s
  exact ⟨c, (Host.Outcome.next.inj (hc.symm.trans h)).symm, he⟩

/-- The block a list of commands leaves. -/
def Block.afterAll (is : List Instr) (b : Block aw w) : Block aw w := is.foldl (fun b i => b.after i) b

end Sys2Proof.Machine
end

