-- ==== Sys2Proof/Laws/Flags.lean ====
section
/-! SUPPORT. The flags and counts as propositions, and the number the count port carries. -/

namespace Sys2Proof.Machine

variable {aw w : Nat}

/-- EMPTY as a proposition (R28). -/
theorem Block.EMPTY_iff (b : Block aw w) : b.EMPTY = true ↔ b.HEAD = b.TAIL := by simp [Block.EMPTY]

/-- FULL as a proposition (R29). -/
theorem Block.FULL_iff (b : Block aw w) :
    b.FULL = true ↔
      (b.HEAD = b.BEGIN ∧ b.TAIL = b.END) ∨ (b.TAIL.toNat : Int) = (b.HEAD.toNat : Int) - 1 := by
  simp [Block.FULL]

/-- The range invariant over the natural numbers. -/
theorem Block.inRange_toNat {b : Block aw w} (h : b.inRange) :
    b.BEGIN.toNat < b.END.toNat ∧ b.BEGIN.toNat ≤ b.HEAD.toNat ∧ b.HEAD.toNat ≤ b.END.toNat ∧
      b.BEGIN.toNat ≤ b.TAIL.toNat ∧ b.TAIL.toNat ≤ b.END.toNat := by
  simpa [Block.inRange, BitVec.lt_def, BitVec.le_def] using h

/-- A count that fits the port arrives whole. -/
theorem countPort_toNat {n : Int} (h0 : 0 ≤ n) (h1 : n < 2 ^ aw) : ((countPort aw n).toNat : Int) = n := by
  have hp : ((2 ^ aw : Nat) : Int) = (2 : Int) ^ aw := by push_cast; rfl
  rw [countPort, BitVec.toNat_ofInt, hp, Int.emod_eq_of_lt h0 h1]
  exact Int.toNat_of_nonneg h0

/-- An operand that fits its port arrives whole (R83). -/
theorem addrOperand_toNat {n : Nat} (h : n < 2 ^ aw) : (addrOperand aw n).toNat = n := by
  simp [addrOperand, Nat.mod_eq_of_lt h]

/-- The END of an accepted region is the integer base + size - 1 (R100). -/
theorem install_END_toNat {base size : BitVec aw} (h : ¬ initRejects base size) :
    (base + size - 1#aw).toNat = base.toNat + size.toNat - 1 := by
  have hp : ((2 ^ aw : Nat) : Int) = (2 : Int) ^ aw := by push_cast; rfl
  simp only [initRejects, not_or, not_lt, gt_iff_lt, ← hp] at h
  have hb := base.isLt
  have hs := size.isLt
  rw [BitVec.toNat_sub, BitVec.toNat_add, BitVec.toNat_ofNat, Nat.mod_eq_of_lt (a := 1) (by omega)]
  by_cases hsum : base.toNat + size.toNat < 2 ^ aw
  · rw [Nat.mod_eq_of_lt hsum,
      show 2 ^ aw - 1 + (base.toNat + size.toNat) = base.toNat + size.toNat - 1 + 2 ^ aw by omega,
      Nat.add_mod_right, Nat.mod_eq_of_lt (by omega)]
  · have : base.toNat + size.toNat = 2 ^ aw := by omega
    rw [this, Nat.mod_self, add_zero, Nat.mod_eq_of_lt (by omega)]

end Sys2Proof.Machine
end

