-- ==== Sys2Proof/Laws/Memory.lean ====
section
/-! SUPPORT. The laws of the slot storage: read after write, a write elsewhere, the canonical form. -/

namespace Sys2Proof.Machine

variable {w : Nat}

@[simp] theorem Memory.read_write_same (m : Memory w) (a : Nat) (v : Elem w) : (m.write a v).read a = some v := by
  induction m with
  | nil => simp [Memory.write, Memory.read]
  | cons c m ih =>
    obtain ⟨k, e⟩ := c
    simp only [Memory.write]
    split
    · simp [Memory.read]
    · split
      · simp [Memory.read]
      · have : k ≠ a := fun h => ‹¬ a = k› h.symm
        simpa [Memory.read, this] using ih

@[simp] theorem Memory.read_write_other (m : Memory w) (a c : Nat) (v : Elem w) (h : c ≠ a) :
    (m.write a v).read c = m.read c := by
  induction m with
  | nil => simp [Memory.write, Memory.read, h.symm]
  | cons x m ih =>
    obtain ⟨k, e⟩ := x
    simp only [Memory.write]
    split
    · simp [Memory.read, h.symm]
    · split
      · subst k; simp [Memory.read, h.symm]
      · simp only [Memory.read, ih]

/-- The cells of a written storage: the new one and old ones. -/
theorem Memory.mem_write {m : Memory w} {a : Nat} {v : Elem w} {c : Nat × BitVec w} (h : c ∈ m.write a v) :
    c = (a, v) ∨ c ∈ m := by
  induction m with
  | nil => simpa [Memory.write] using h
  | cons x m ih =>
    obtain ⟨k, e⟩ := x
    simp only [Memory.write] at h
    split at h
    · simpa using h
    · split at h
      · exact (List.mem_cons.mp h).imp id (List.mem_cons_of_mem _)
      · rcases List.mem_cons.mp h with h | h
        · exact .inr (h ▸ List.mem_cons_self ..)
        · exact (ih h).imp id (List.mem_cons_of_mem _)

/-- A write inside the address space keeps the canonical form. -/
theorem Memory.write_wf {aw : Nat} {m : Memory w} (hm : m.wf aw) {a : Nat} (ha : a < 2 ^ aw) (v : Elem w) :
    (m.write a v).wf aw := by
  refine ⟨?_, fun c hc => (Memory.mem_write hc).elim (fun h => h ▸ ha) (hm.2 c)⟩
  have hp := hm.1
  clear hm
  induction m with
  | nil => simp [Memory.write]
  | cons x m ih =>
    obtain ⟨k, e⟩ := x
    obtain ⟨hx, hrest⟩ := List.pairwise_cons.mp hp
    simp only [Memory.write]
    split
    · refine List.pairwise_cons.mpr ⟨fun c hc => ?_, hp⟩
      rcases List.mem_cons.mp hc with rfl | hc
      · assumption
      · exact Nat.lt_trans ‹a < k› (hx c hc)
    · split
      · exact List.pairwise_cons.mpr ⟨fun c hc => by simpa [‹a = k›] using hx c hc, hrest⟩
      · refine List.pairwise_cons.mpr ⟨fun c hc => ?_, ih hrest⟩
        rcases Memory.mem_write hc with rfl | hc
        · simp only; omega
        · exact hx c hc

/-- The storage right after reset has the canonical form. -/
theorem Memory.wf_nil (aw : Nat) : Memory.wf aw ([] : Memory w) := ⟨.nil, by simp⟩

@[simp] theorem Memory.read_nil (a : Nat) : Memory.read ([] : Memory w) a = none := rfl

variable {aw : Nat}

theorem Block.slot_storeSlot_same (b : Block aw w) (a : SlotAddr aw) (v : Elem w) :
    (b.storeSlot a v).slot a = some v := Memory.read_write_same ..

theorem Block.slot_storeSlot_other (b : Block aw w) {a c : SlotAddr aw} (v : Elem w) (h : c ≠ a) :
    (b.storeSlot a v).slot c = b.slot c :=
  Memory.read_write_other _ _ _ _ fun e => h (BitVec.eq_of_toNat_eq e)

end Sys2Proof.Machine
end

