-- ==== Sys2Proof/Laws/PerInstr.lean ====
section
/-! SUPPORT. Families of statements about every command, one lemma for each constructor. -/

namespace Sys2Proof.Laws

/-- The opcode survives presenting a command on the ports, whatever its operands and the widths (R82). -/
def OpcodeKept.Statement (i : Instr) : Prop :=
  ∀ aw w : Nat, (encode aw w i).op = i.opcode.bits ∧ (decode (encode aw w i)).opcode = i.opcode

theorem OpcodeKept.init (base size : Nat) : OpcodeKept.Statement (.init base size) := fun _ _ => ⟨rfl, rfl⟩
theorem OpcodeKept.isEmpty : OpcodeKept.Statement .isEmpty := fun _ _ => ⟨rfl, rfl⟩
theorem OpcodeKept.isFull : OpcodeKept.Statement .isFull := fun _ _ => ⟨rfl, rfl⟩
theorem OpcodeKept.room : OpcodeKept.Statement .room := fun _ _ => ⟨rfl, rfl⟩
theorem OpcodeKept.len : OpcodeKept.Statement .len := fun _ _ => ⟨rfl, rfl⟩
theorem OpcodeKept.push (elem : Nat) : OpcodeKept.Statement (.push elem) := fun _ _ => ⟨rfl, rfl⟩
theorem OpcodeKept.pop : OpcodeKept.Statement .pop := fun _ _ => ⟨rfl, rfl⟩
theorem OpcodeKept.flush : OpcodeKept.Statement .flush := fun _ _ => ⟨rfl, rfl⟩

end Sys2Proof.Laws
end

