-- ==== Sys2Proof/Laws/Queue.lean ====
section
/-! SUPPORT. The held slots and the content depend on the four positions and on the slots alone. -/

namespace Sys2Proof.Machine

variable {aw w w' : Nat}

theorem Block.slotsFrom_length (b : Block aw w) (p : SlotAddr aw) (n : Nat) : (b.slotsFrom p n).length = n := by
  induction n generalizing p with
  | zero => rfl
  | succ n ih => simp [Block.slotsFrom, ih]

/-- Walking the region uses BEGIN and END only. -/
theorem Block.slotsFrom_congr {b : Block aw w} {c : Block aw w'} (hB : c.BEGIN = b.BEGIN) (hE : c.END = b.END)
    (p : SlotAddr aw) (n : Nat) : c.slotsFrom p n = b.slotsFrom p n := by
  induction n generalizing p with
  | zero => rfl
  | succ n ih => simp only [Block.slotsFrom, Block.succ, hB, hE, ih]

/-- The held slots are a function of the positions. -/
theorem Block.heldSlots_congr {b : Block aw w} {c : Block aw w'} (hB : c.BEGIN = b.BEGIN) (hE : c.END = b.END)
    (hH : c.HEAD = b.HEAD) (hT : c.TAIL = b.TAIL) : c.heldSlots = b.heldSlots := by
  have hO : c.OCC = b.OCC := by simp only [Block.OCC, Block.LENV, Block.ROOMV, hB, hE, hH, hT]
  rw [Block.heldSlots, Block.heldSlots, hO, hH, Block.slotsFrom_congr hB hE]

/-- The content is a function of the positions, the slots and the epoch. -/
theorem Block.contents_congr {b c : Block aw w} (hB : c.BEGIN = b.BEGIN) (hE : c.END = b.END)
    (hH : c.HEAD = b.HEAD) (hT : c.TAIL = b.TAIL) (hM : c.MEM = b.MEM) (he : c.epoch = b.epoch) :
    c.contents = b.contents := by
  rw [Block.contents, Block.contents, Block.heldSlots_congr hB hE hH hT]
  refine List.map_congr_left fun a _ => ?_
  simp only [Block.slotValue, Block.slot, hM, he]

end Sys2Proof.Machine
end

