-- ==== Sys2Proof/Laws/Runs.lean ====
section
/-! SUPPORT. Sequences of commands: a run always answers, it is a function of the block, and a faulted block stays as it is. -/

namespace Sys2Proof.Machine

variable {aw w : Nat}

/-- A run of commands is `Block.afterAll` on the machine's block. -/
theorem runCommands_eq (is : List Instr) (s : State) : runCommands is s = .next (s.withBlk (s.blk.afterAll is)) := by
  induction is generalizing s with
  | nil => rfl
  | cons i is ih => rw [runCommands, exec_eq_after]; exact ih _

/-- A faulted block keeps its registers along every run (R207). -/
theorem Block.afterAll_faulted (is : List Instr) (b : Block aw w) (hf : b.FAULT ≠ .noFault) :
    b.sameRegisters (b.afterAll is) := by
  induction is generalizing b with
  | nil => exact ⟨rfl, rfl, rfl, rfl, rfl, rfl⟩
  | cons i is ih =>
    have h : b.after i = b.quiet := by
      generalize hc : b.after i = c
      have he := hc ▸ b.after_effect i
      cases he <;> first | rfl | contradiction
    show b.sameRegisters ((b.after i).afterAll is)
    rw [h]
    exact ih b.quiet hf

/-- A run that ends without a fault began without one. -/
theorem Block.noFault_of_afterAll {is : List Instr} {b : Block aw w}
    (h : (b.afterAll is).FAULT = .noFault) : b.FAULT = .noFault := by
  by_contra hf
  exact hf ((Block.afterAll_faulted is b hf).2.1.symm.trans h)

end Sys2Proof.Machine
end

