-- ==== Sys2Proof/Machine/HostView.lean ====
section
/-! DEFINITION. How the host and the platform read an element (20_memory.md R55, 45_width_variants.md R161, R162). No command uses
any of it: elements are opaque to the block (R163; log 21). -/

namespace Sys2Proof.Machine

/-- The integer a host reads in an element: RB8 by ELEM8_SIGNED (R161), RB16 as two's complement (R162, PRESUMED: G2 of
93_implementation_defined.md). -/
def hostInteger (p : Params) (e : Elem p.w) : Int :=
  match p.variant with
  | .RB8 => if p.elem8Signed then e.toInt else (e.toNat : Int)
  | .RB16 => e.toInt

/-- The bytes of a slot, lowest byte address first, where a platform keeps slots in byte-addressed memory (R55). -/
def platformBytes (p : Params) (e : Elem p.w) : List (BitVec 8) :=
  match p.variant, p.slotByteOrder with
  | .RB8, _ => [BitVec.ofNat 8 e.toNat]
  | .RB16, .little => [BitVec.ofNat 8 e.toNat, BitVec.ofNat 8 (e.toNat / 2 ^ 8)]
  | .RB16, .big => [BitVec.ofNat 8 (e.toNat / 2 ^ 8), BitVec.ofNat 8 e.toNat]

end Sys2Proof.Machine
end

