-- ==== Sys2Proof/Tests/Slice0.lean ====
section
/-! SUPPORT. Tests of the model, each about one step at most, with results from 95_test_vectors.md or worked out by hand from the
rules; then, for every obligation with hypotheses, a state and operands that meet them. -/

namespace Sys2Proof.Tests

open Sys2Proof.Machine

/-! ### Form and encoding -/

theorem test_wellFormed_accepts : WellFormed 16 8 (.init 0xFFFF 0xFFFF) = true ∧ WellFormed 16 8 (.push 0xFF) = true := by decide
theorem test_wellFormed_refuses_base : WellFormed 16 8 (.init 0x10000 5) = false := by decide
theorem test_wellFormed_refuses_size : WellFormed 16 8 (.init 0x0100 0x10000) = false := by decide
theorem test_wellFormed_refuses_elem : WellFormed 16 8 (.push 0x100) = false ∧ WellFormed 16 16 (.push 0x100) = true := by decide

/-- The binary column of R82, row by row. -/
theorem test_decode_opcodes :
    decodeTableWord 8 0b000 = some (.init 0 0) ∧ decodeTableWord 8 0b001 = some .isEmpty ∧
    decodeTableWord 8 0b010 = some .isFull ∧ decodeTableWord 8 0b011 = some .room ∧
    decodeTableWord 8 0b100 = some .len ∧ decodeTableWord 8 0b101 = some (.push 0) ∧
    decodeTableWord 8 0b110 = some .pop ∧ decodeTableWord 8 0b111 = some .flush := by decide

/-- `INIT 0x0100, 5` on RB8, the ports elem, size, base, op written out from the left. -/
theorem test_decode_init :
    decodeWord 16 8 43 0b00000000_0000000000000101_0000000100000000_000 = .ok (.init 0x0100 5) := by rfl

/-- `PUSH 0x41` on RB8 and `PUSH 0x8000` on RB16. -/
theorem test_decode_push :
    decodeWord 16 8 43 0b01000001_0000000000000000_0000000000000000_101 = .ok (.push 0x41) ∧
    decodeWord 16 16 51 0b1000000000000000_0000000000000000_0000000000000000_101 = .ok (.push 0x8000) := ⟨rfl, rfl⟩

/-- POP with every operand port at ones: format N reads none of them (R81). -/
theorem test_decode_pop :
    decodeWord 16 8 43 0b11111111_1111111111111111_1111111111111111_110 = .ok .pop := by rfl

theorem test_decode_refuses_short : decodeWord 16 8 2 0b10 = .error .noOpcode := by rfl

theorem test_encode_init :
    encodeWord 16 8 (.init 0x0100 5) = 0b00000000_0000000000000101_0000000100000000_000 := by decide

/-! ### One step of each command -/

/-- A block with the positions, and the elements of some slots. -/
def ring (v : Variant) (b e h t : Nat) (m : List (Nat × Nat)) : State :=
  { params := { Config.resetParams with variant := v }
    blk := { Block.reset _ _ with
      INITED := true, BEGIN := BitVec.ofNat _ b, END := BitVec.ofNat _ e
      HEAD := BitVec.ofNat _ h, TAIL := BitVec.ofNat _ t
      MEM := m.map fun c => (c.1, BitVec.ofNat _ c.2) } }

/-- The same block with a fault code. -/
def ring.faulted (s : State) (f : FaultCode) : State := s.withBlk { s.blk with FAULT := f }

/-- The command answers a next state of which `p` holds. -/
def leaves (i : Instr) (s : State) (p : State → Bool) : Bool :=
  match exec i s with
  | .next t => p t
  | .fault _ => false
  | .refused _ => false

/-- HEAD, TAIL and FAULT, the columns of 95_test_vectors.md. -/
def cursors (s : State) : Nat × Nat × FaultCode := (s.blk.HEAD.toNat, s.blk.TAIL.toNat, s.blk.FAULT)

/-- V1, rows 1 and the one that ends on the last slot address. -/
theorem test_init_installs :
    leaves (.init 0x0100 5) State.reset (fun t => t.blk.INITED && t.blk.BEGIN.toNat == 0x0100 &&
      t.blk.END.toNat == 0x0104 && cursors t == (0x0100, 0x0100, .noFault)) = true ∧
    leaves (.init 0xFFFE 2) State.reset (fun t => t.blk.INITED && t.blk.END.toNat == 0xFFFF) = true := by decide

/-- V1: too few slots, and a region past the top. -/
theorem test_init_rejects :
    leaves (.init 0x0100 1) State.reset (fun t => !t.blk.INITED && t.blk.FAULT == .constructionError) = true ∧
    leaves (.init 0xFFFE 3) State.reset (fun t => !t.blk.INITED && t.blk.FAULT == .constructionError) = true := by decide

/-- Empty at END, not empty one slot on (R110). -/
theorem test_isEmpty :
    leaves .isEmpty (ring .RB8 0x0100 0x0104 0x0104 0x0104 []) (fun t => t.blk.out.rspFlag) = true ∧
    leaves .isEmpty (ring .RB8 0x0100 0x0104 0x0104 0x0100 []) (fun t => !t.blk.out.rspFlag) = true := by decide

/-- T7, rows 10, 12 and 15: full by either clause, and not full. -/
theorem test_isFull :
    leaves .isFull (ring .RB8 0x0100 0x0104 0x0100 0x0104 []) (fun t => t.blk.out.rspFlag) = true ∧
    leaves .isFull (ring .RB8 0x0100 0x0104 0x0101 0x0104 []) (fun t => !t.blk.out.rspFlag) = true ∧
    leaves .isFull (ring .RB8 0x0100 0x0104 0x0101 0x0100 []) (fun t => t.blk.out.rspFlag) = true := by decide

/-- The examples of R121. -/
theorem test_room :
    leaves .room (ring .RB8 0x0100 0x0104 0x0101 0x0104 []) (fun t => t.blk.out.rspCount.toNat == 1) = true ∧
    leaves .room (ring .RB8 0x0100 0x0104 0x0103 0x0101 []) (fun t => t.blk.out.rspCount.toNat == 1) = true ∧
    leaves .room (ring .RB8 0x0100 0x0104 0x0102 0x0102 []) (fun t => t.blk.out.rspCount.toNat == 4) = true := by decide

/-- A region over address 0x8000 needs the unsigned comparison (R125): 0x8001, 0x8002 and 0x7FFE are held, so 1 of 4 is free. -/
theorem test_room_unsigned :
    leaves .room (ring .RB8 0x7FFE 0x8002 0x8001 0x7FFF []) (fun t => t.blk.out.rspCount.toNat == 1) = true := by decide

/-- LEN is SIZE - 1, full or empty (R123, conflict C1). -/
theorem test_len :
    leaves .len (ring .RB8 0x0100 0x0104 0x0101 0x0100 []) (fun t => t.blk.out.rspCount.toNat == 4) = true ∧
    leaves .len (ring .RB16 0x0000 0xFFFE 0x0000 0x0000 []) (fun t => t.blk.out.rspCount.toNat == 65534) = true := by decide

/-- The example of R130: the slot at END is written, TAIL wraps. -/
theorem test_push_wraps :
    leaves (.push 0x45) (ring .RB8 0x0100 0x0104 0x0101 0x0104 [(0x0101, 0x42)]) (fun t =>
      cursors t == (0x0101, 0x0100, .noFault) && t.blk.FULL &&
      (t.blk.slot 0x0104#t.params.aw).map BitVec.toNat == some 0x45 &&
      (t.blk.slot 0x0101#t.params.aw).map BitVec.toNat == some 0x42) = true := by decide

/-- P4 (b), row 4: a full buffer keeps its slots and cursors. -/
theorem test_push_full :
    leaves (.push 0x03) (ring .RB8 0x0100 0x0102 0x0100 0x0102 [(0x0100, 1), (0x0101, 2)]) (fun t =>
      cursors t == (0x0100, 0x0102, .pushOnFull) && t.blk.slot 0x0102#t.params.aw == none) = true := by decide

/-- The example of R131: the slot at END is read, HEAD wraps; the 16 bits of RB16 come back whole. -/
theorem test_pop_wraps :
    leaves .pop (ring .RB16 0x0100 0x0104 0x0104 0x0100 [(0x0104, 0x8045)]) (fun t =>
      cursors t == (0x0100, 0x0100, .noFault) && t.blk.EMPTY && t.blk.out.rspElem.toNat == 0x8045) = true := by decide

/-- P4 (c), row 4, although the slot at HEAD holds a stale element. -/
theorem test_pop_empty :
    leaves .pop (ring .RB16 0x0100 0x0101 0x0101 0x0101 [(0x0101, 0xBEEF)]) (fun t =>
      cursors t == (0x0101, 0x0101, .popOnEmpty) && !t.blk.out.memRe) = true := by decide

/-- T5, row 9 of the second instance, and the slots stay. -/
theorem test_flush :
    leaves .flush (ring .RB8 0x0100 0x0104 0x0101 0x0100 [(0x0100, 1)]) (fun t =>
      cursors t == (0x0100, 0x0100, .noFault) &&
      (t.blk.slot 0x0100#t.params.aw).map BitVec.toNat == some 1) = true := by decide

/-- P4 (a): before INIT, and an INIT after the fault. -/
theorem test_uninitialised :
    leaves (.push 1) State.reset (fun t => t.blk.FAULT == .uninitialised && !t.blk.INITED) = true ∧
    leaves (.init 0x0100 4) (ring.faulted State.reset .uninitialised)
      (fun t => t.blk.FAULT == .uninitialised && !t.blk.INITED) = true := by decide

/-! ### The step and the host's reading -/

/-- A command word placed by `withFetchWord` runs as the first command after reset. -/
theorem test_step_fetchWord :
    step (State.reset.withFetchWord 8 0b111) = exec .flush State.reset ∧
    step (State.reset.withFetchWord 43 0b00000000_0000000000000101_0000000100000000_000) =
      exec (.init 0x0100 5) State.reset := ⟨rfl, rfl⟩

/-- A reset event clears the fault and the storage (R230). -/
theorem test_step_reset :
    (match step ((ring.faulted (ring .RB8 0 3 1 2 [(1, 7)]) .pushOnFull).withBlk
        { (ring.faulted (ring .RB8 0 3 1 2 [(1, 7)]) .pushOnFull).blk with inputs := [.reset] }) with
      | .next t => t.blk.FAULT == .noFault && !t.blk.INITED && t.blk.MEM.isEmpty
      | _ => false) = true := by decide

theorem test_memory_write : Memory.write [(1, 5#8), (4, 6#8)] 2 7#8 = [(1, 5#8), (2, 7#8), (4, 6#8)] := by decide
theorem test_memory_wf : Memory.wf 16 State.reset.blk.MEM ∧ ¬ Memory.wf 16 [(2, 7#8), (1, 5#8)] := by decide

/-- G2: 0x8000 reads as -32768. -/
theorem test_host_sign :
    hostInteger ⟨.RB16, 16, .little, false⟩ 0x8000#16 = -32768 ∧ hostInteger ⟨.RB8, 16, .little, true⟩ 0xFF#8 = -1 ∧
    hostInteger ⟨.RB8, 16, .little, false⟩ 0xFF#8 = 255 := by decide

theorem test_host_bytes :
    platformBytes ⟨.RB16, 16, .little, false⟩ 0x1234#16 = [0x34#8, 0x12#8] ∧
    platformBytes ⟨.RB16, 16, .big, false⟩ 0x1234#16 = [0x12#8, 0x34#8] := by decide

/-- The lines of R89. -/
theorem test_text :
    Instr.line .producer .RB8 (.push 5) none = "P: RB8.PUSH 5" ∧
    Instr.line .consumer .RB16 .pop (some 7) = "C: RB16.POP -> 7" := ⟨rfl, rfl⟩

theorem test_core : Sys2Proof.core.step = step ∧ Sys2Proof.core.reset = State.reset := ⟨rfl, rfl⟩

/-! ### States that meet the hypotheses of the obligations, at the boundaries of their clauses -/

/-- One element short of full, TAIL at END (T7, after row 11). -/
def almostFull : State := ring .RB8 0x0100 0x0104 0x0101 0x0104 [(0x0101, 0x42), (0x0102, 0x43), (0x0103, 0x44)]
/-- Full with TAIL wrapped behind HEAD (T7, after row 14). -/
def full : State :=
  ring .RB8 0x0100 0x0104 0x0101 0x0100 [(0x0101, 0x42), (0x0102, 0x43), (0x0103, 0x44), (0x0104, 0x45)]
/-- Empty away from BEGIN. -/
def empty : State := ring .RB8 0x0100 0x0104 0x0102 0x0102 []
/-- One element, HEAD at END, TAIL wrapped. -/
def lastAtEnd : State := ring .RB16 0x0100 0x0104 0x0104 0x0100 [(0x0104, 0x8045)]
/-- The smallest region (T6), with no element. -/
def two : State := ring .RB8 0x0100 0x0101 0x0100 0x0100 []
/-- The smallest region, full. -/
def twoFull : State := ring .RB8 0x0100 0x0101 0x0100 0x0101 [(0x0100, 0x5A)]
/-- Full in a region that covers all but one slot address, HEAD at BEGIN = 1 and TAIL at the top. -/
def whole : State := ring .RB8 0x0001 0xFFFF 0x0001 0xFFFF []

/-- A region of three slots in the smallest address space (AW = 2), with one element and room for one more. -/
def small : State :=
  { params := { Config.resetParams with aw := 2 }
    blk := { Block.reset _ _ with INITED := true, BEGIN := 1, END := 3, HEAD := 2, TAIL := 3, MEM := [(2, 9)] } }

/-- A state with events waiting. -/
def waiting (s : State) (l : List (Event s.params.aw s.params.w)) : State := s.withBlk { s.blk with inputs := l }

/-- A sample of the ports of RB8. -/
def ports (valid : Bool) (op : BitVec 3) (base size : BitVec 16) (elem : BitVec 8) : CommandPorts 16 8 :=
  { valid := valid, op := op, base := base, size := size, elem := elem }

theorem witness_DecodeEncodePorts :
    WellFormed 2 16 (.init 3 3) = true ∧ WellFormed 16 8 (.init 0xFFFF 0) = true ∧ WellFormed 16 16 (.push 0xFFFF) = true ∧
    WellFormed 2 8 .pop = true := by decide

theorem witness_DecodeEncodeWord :
    WellFormed 2 16 (.init 3 3) = true ∧ WellFormed 16 8 (.init 0xFFFF 0) = true ∧ WellFormed 16 16 (.push 0xFFFF) = true ∧
    WellFormed 2 8 .flush = true := by decide

/-- Two samples for each format that differ wherever they may: INIT in `elem`, PUSH in the other two, POP in all three. -/
theorem witness_DecodeIgnoresUnreadPorts :
    (∀ op : BitVec 3, ∃ p q : CommandPorts 16 8, p ≠ q ∧ p.op = op ∧ p.op = q.op ∧
      (p.op = 0b000#3 → p.base = q.base ∧ p.size = q.size) ∧ (p.op = 0b101#3 → p.elem = q.elem)) := by
  intro op
  by_cases h : op = 0b101#3
  · exact ⟨ports true op 1 2 3, ports true op 4 5 3, by simp [ports], rfl, rfl, by simp [ports, h], fun _ => rfl⟩
  · exact ⟨ports true op 1 2 3, ports true op 1 2 4, by simp [ports], rfl, rfl, fun _ => ⟨rfl, rfl⟩, fun e => absurd e h⟩

theorem witness_StepRunsPresented :
    (waiting almostFull [.present .producer (ports true 0b101#3 0 0 0x45)]).blk.inputs =
      .present .producer (ports true 0b101#3 0 0 0x45) :: [] ∧ (ports true 0b101#3 0 0 0x45).valid = true := ⟨rfl, rfl⟩

theorem witness_StepRunsFetchWord : decodeWord two.params.aw two.params.w 3 0b110 = .ok .pop := by rfl

theorem witness_IdleStepChangesNothing :
    two.blk.inputs = [] ∧ (waiting two [.present .consumer (ports false 0b110#3 0 0 0)]).blk.inputs =
      .present .consumer (ports false 0b110#3 0 0 0) :: [] ∧ (ports false 0b110#3 0 0 0).valid = false := ⟨rfl, rfl, rfl⟩

theorem witness_ResetEvent : (waiting full [.reset]).blk.inputs = .reset :: [] ∧ Instr.pop.opcode ≠ .INIT := ⟨rfl, by decide⟩

theorem witness_ResetForgets :
    (waiting full [.reset]).blk.inputs = .reset :: [] ∧ (waiting two [.reset]).blk.inputs = .reset :: [] ∧
    (waiting full [.reset]).blk.draws = (waiting two [.reset]).blk.draws ∧
    (waiting full [.reset]).blk.epoch = (waiting two [.reset]).blk.epoch := ⟨rfl, rfl, rfl, rfl⟩

/-- The lowest and the highest region, the smallest and the largest, and a second INIT. -/
theorem witness_InitInstalls :
    full.blk.FAULT = .noFault ∧
    ∀ o ∈ [(0, 2), (0, 65535), (1, 65535), (0xFFFE, 2)], o.1 < 2 ^ full.params.aw ∧ o.2 < 2 ^ full.params.aw ∧ 2 ≤ o.2 ∧
      o.1 + o.2 - 1 ≤ 2 ^ full.params.aw - 1 := by decide

/-- Either reason to reject, each at its boundary. -/
theorem witness_InitRejects :
    State.reset.blk.FAULT = .noFault ∧
    ∀ o ∈ [(0, 0), (0, 1), (2, 65535), (0xFFFF, 2)], o.1 < 2 ^ State.reset.params.aw ∧ o.2 < 2 ^ State.reset.params.aw ∧
      (o.2 < 2 ∨ o.1 + o.2 - 1 > 2 ^ State.reset.params.aw - 1) := by decide

theorem witness_IsEmptyAnswers : (empty.blk.ready ∧ empty.blk.EMPTY) ∧ almostFull.blk.ready ∧ ¬ almostFull.blk.EMPTY := by decide
theorem witness_IsFullAnswers :
    (full.blk.ready ∧ full.blk.FULL) ∧ (twoFull.blk.ready ∧ twoFull.blk.FULL) ∧ almostFull.blk.ready ∧ ¬ almostFull.blk.FULL := by
  decide
theorem witness_RoomAnswers :
    (full.blk.ready ∧ full.blk.inRange ∧ full.blk.TAIL < full.blk.HEAD) ∧
    (empty.blk.ready ∧ empty.blk.inRange ∧ ¬ empty.blk.TAIL < empty.blk.HEAD) := by decide
theorem witness_LenAnswers : (two.blk.ready ∧ two.blk.inRange) ∧ (whole.blk.ready ∧ whole.blk.inRange) := by decide
theorem witness_PushStores :
    (almostFull.blk.ready ∧ almostFull.blk.FULL = false ∧ almostFull.blk.TAIL = almostFull.blk.END) ∧
    (empty.blk.ready ∧ empty.blk.FULL = false ∧ empty.blk.TAIL ≠ empty.blk.END) := by decide
theorem witness_PushFlagsAfter :
    (almostFull.blk.ready ∧ almostFull.blk.inRange ∧ almostFull.blk.FULL = false ∧ almostFull.blk.ROOMV = 1) ∧
    (empty.blk.ready ∧ empty.blk.inRange ∧ empty.blk.FULL = false ∧ empty.blk.ROOMV ≠ 1) ∧
    ∃ t, exec (.push 0x45) almostFull = .next t := ⟨by decide, by decide, _, rfl⟩
theorem witness_PopLoads :
    (lastAtEnd.blk.ready ∧ lastAtEnd.blk.EMPTY = false ∧ lastAtEnd.blk.HEAD = lastAtEnd.blk.END ∧
      (lastAtEnd.blk.slot lastAtEnd.blk.HEAD).isSome = true) ∧
    (full.blk.ready ∧ full.blk.EMPTY = false ∧ full.blk.HEAD ≠ full.blk.END) := by decide
theorem witness_PopFlagsAfter :
    (lastAtEnd.blk.ready ∧ lastAtEnd.blk.inRange ∧ lastAtEnd.blk.EMPTY = false ∧ lastAtEnd.blk.OCC = 1) ∧
    (full.blk.ready ∧ full.blk.inRange ∧ full.blk.EMPTY = false ∧ full.blk.OCC ≠ 1) ∧
    ∃ t, exec .pop lastAtEnd = .next t := ⟨by decide, by decide, _, rfl⟩
theorem witness_FlushEmpties : (full.blk.ready ∧ full.blk.inRange) ∧ (empty.blk.ready ∧ empty.blk.inRange) := by decide

theorem witness_UninitialisedFault :
    State.reset.blk.FAULT = .noFault ∧ State.reset.blk.INITED = false ∧ Instr.flush.opcode ≠ .INIT := by decide
theorem witness_PushOnFullFault : (full.blk.ready ∧ full.blk.FULL = true) ∧ whole.blk.ready ∧ whole.blk.FULL = true := by decide
theorem witness_PopOnEmptyFault : (empty.blk.ready ∧ empty.blk.EMPTY = true) ∧ two.blk.ready ∧ two.blk.EMPTY = true := by decide
theorem witness_FailStop : (ring.faulted full .pushOnFull).blk.FAULT ≠ .noFault := by decide
theorem witness_OnlyResetLeavesFault :
    ∃ t, step (waiting (ring.faulted full .pushOnFull) [.reset]) = .next t ∧
      (waiting (ring.faulted full .pushOnFull) [.reset]).blk.FAULT ≠ .noFault ∧
      t.blk.FAULT ≠ (waiting (ring.faulted full .pushOnFull) [.reset]).blk.FAULT := ⟨_, rfl, by decide, by decide⟩
/-- A state for each clause: fault-stopped, the four faults, and none. -/
theorem witness_FaultPriority :
    (∃ b, exec .pop (ring.faulted full .pushOnFull) = .next ((ring.faulted full .pushOnFull).withBlk b)) ∧
    (∃ b, exec (.init 0xFFFF 2) two = .next (two.withBlk b) ∧ b.FAULT = .constructionError) ∧
    (∃ b, exec .pop State.reset = .next (State.reset.withBlk b) ∧ b.FAULT = .uninitialised) ∧
    (∃ b, exec (.push 0xFF) full = .next (full.withBlk b) ∧ b.FAULT = .pushOnFull) ∧
    (∃ b, exec .pop two = .next (two.withBlk b) ∧ b.FAULT = .popOnEmpty) ∧
    (∃ b, exec .pop full = .next (full.withBlk b) ∧ b.FAULT = .noFault) ∧
    WellFormed 16 8 (.init 0xFFFF 2) = true ∧ WellFormed 16 8 (.push 0xFF) = true ∧ WellFormed 16 8 .pop = true :=
  ⟨⟨_, rfl⟩, ⟨_, rfl, rfl⟩, ⟨_, rfl, rfl⟩, ⟨_, rfl, rfl⟩, ⟨_, rfl, rfl⟩, ⟨_, rfl, rfl⟩, by decide, by decide, by decide⟩

theorem witness_StorageAccesses :
    (∃ b, exec (.push 0x45) almostFull = .next (almostFull.withBlk b) ∧ b.out.memWe = true ∧
      b.slot 0x0104#16 ≠ almostFull.blk.slot 0x0104#16) ∧
    ∃ b, exec .pop full = .next (full.withBlk b) ∧ b.out.memRe = true :=
  ⟨⟨_, rfl, rfl, by decide⟩, _, rfl, rfl⟩
theorem witness_WriteSets :
    (∃ b, exec (.init 0 2) State.reset = .next (State.reset.withBlk b) ∧ b.INITED ≠ State.reset.blk.INITED) ∧
    (∃ b, exec .flush full = .next (full.withBlk b) ∧ b.HEAD ≠ full.blk.HEAD) ∧
    ∃ b, exec (.push 1) two = .next (two.withBlk b) ∧ b.TAIL ≠ two.blk.TAIL :=
  ⟨⟨_, rfl, by decide⟩, ⟨_, rfl, by decide⟩, _, rfl, by decide⟩
theorem witness_OwnershipOfCursors :
    (∃ b, exec (.push 1) two = .next (two.withBlk b)) ∧ Agent.producer.mayIssue (Instr.push 1).opcode = true ∧
    (∃ b, exec .flush full = .next (full.withBlk b)) ∧ Agent.consumer.mayIssue Instr.flush.opcode = true :=
  ⟨⟨_, rfl⟩, rfl, ⟨_, rfl⟩, rfl⟩
/-- An RB8 block and an RB16 block with the same registers, other elements and another element pushed. -/
theorem witness_MovesAlikeWhateverTheElements :
    (Instr.push 1).opcode = (Instr.push 0x8000).opcode ∧ ((Instr.push 1).opcode = .INIT → Instr.push 1 = Instr.push 0x8000) ∧
    two.blk.sameRegisters (ring .RB16 0x0100 0x0101 0x0100 0x0100 [(0x0100, 0xBEEF)]).blk ∧
    two.blk.draws = (ring .RB16 0x0100 0x0101 0x0100 0x0100 [(0x0100, 0xBEEF)]).blk.draws := by decide

theorem witness_StepKeepsInv :
    (waiting small [.present .producer (encode 2 8 (.push 5))]).Inv ∧
    ∃ t, step (waiting small [.present .producer (encode 2 8 (.push 5))]) = .next t := ⟨by decide, _, rfl⟩
theorem witness_CommandsPreserveRanges :
    (almostFull.blk.INITED = true → almostFull.blk.inRange) ∧ (∃ t, exec (.push 0x45) almostFull = .next t ∧ t.blk.INITED = true) ∧
    (State.reset.blk.INITED = true → State.reset.blk.inRange) ∧ ∃ t, exec (.init 0 2) State.reset = .next t ∧ t.blk.INITED = true :=
  ⟨by decide, ⟨_, rfl, rfl⟩, by decide, _, rfl, rfl⟩
theorem witness_AccessesInsideRegion :
    (waiting small [.present .producer (encode 2 8 (.push 5))]).Inv ∧
    (∃ t, step (waiting small [.present .producer (encode 2 8 (.push 5))]) = .next t ∧ t.blk.out.memWe = true) ∧
    (waiting small [.present .consumer (encode 2 8 .pop)]).Inv ∧
    ∃ t, step (waiting small [.present .consumer (encode 2 8 .pop)]) = .next t ∧ t.blk.out.memRe = true :=
  ⟨by decide, ⟨_, rfl, rfl⟩, by decide, _, rfl, rfl⟩
theorem witness_PopFindsWrittenSlot : small.Inv ∧ small.blk.ready ∧ small.blk.EMPTY = false := by decide

/-- `succ` and `pred` at both ends of the region, and between them. -/
theorem witness_SuccPred :
    almostFull.blk.BEGIN ≤ almostFull.blk.BEGIN ∧ almostFull.blk.BEGIN ≤ almostFull.blk.END ∧
    almostFull.blk.END ≤ almostFull.blk.END ∧ almostFull.blk.BEGIN ≤ almostFull.blk.HEAD ∧
    almostFull.blk.HEAD ≤ almostFull.blk.END ∧ almostFull.blk.HEAD ≠ almostFull.blk.BEGIN ∧
    almostFull.blk.HEAD ≠ almostFull.blk.END := by decide
/-- Full by the first clause, by the second, by the first with HEAD = BEGIN = 0 and TAIL at the top of a small space, and not full. -/
theorem witness_FullThreeForms :
    (twoFull.blk.inRange ∧ twoFull.blk.FULL) ∧ (full.blk.inRange ∧ full.blk.FULL) ∧ (almostFull.blk.inRange ∧ ¬ almostFull.blk.FULL) ∧
    ({ Block.reset 2 8 with END := 3, TAIL := 3 } : Block 2 8).inRange := by decide
theorem witness_EmptyFullExclusive :
    (almostFull.blk.inRange ∧ 0 < almostFull.blk.OCC ∧ almostFull.blk.OCC < almostFull.blk.SIZE - 1) ∧
    (two.blk.inRange ∧ two.blk.SIZE = 2) ∧ twoFull.blk.inRange ∧ twoFull.blk.SIZE = 2 := by decide
theorem witness_RoomRange :
    (full.blk.inRange ∧ full.blk.TAIL < full.blk.HEAD) ∧ (empty.blk.inRange ∧ empty.blk.EMPTY) ∧ whole.blk.inRange := by decide
/-- Also a region over address 0x8000, where a signed comparison would differ. -/
theorem witness_ModularArithmetic :
    full.blk.inRange ∧ whole.blk.inRange ∧ (ring .RB8 0x7FFE 0x8002 0x8001 0x7FFF []).blk.inRange := by decide
theorem witness_OccupancyClosedForm :
    (full.blk.inRange ∧ full.blk.TAIL.toNat < full.blk.HEAD.toNat) ∧ (empty.blk.inRange ∧ empty.blk.EMPTY) ∧ whole.blk.inRange := by
  decide
theorem witness_HeldSlots : (full.blk.inRange ∧ full.blk.HEAD ≠ full.blk.TAIL) ∧ empty.blk.inRange := by decide
theorem witness_OccupancyByPseudoCommand : full.blk.ready ∧ full.blk.inRange := by decide
/-- Ready, initialised with a fault set, not initialised, and every code of FAULT. -/
theorem witness_StatusWires :
    (∀ f ∈ [FaultCode.noFault, .uninitialised, .constructionError, .pushOnFull, .popOnEmpty],
      (ring.faulted full f).blk.FAULT = f) ∧
    full.blk.ready ∧ empty.blk.ready ∧
    ((ring.faulted full .pushOnFull).blk.INITED = true ∧ (ring.faulted full .pushOnFull).blk.FAULT ≠ .noFault) ∧
    State.reset.blk.INITED = false := by decide

/-- Content, room for one more, and INIT operands at the top of the space. -/
theorem witness_QueueRefinement :
    almostFull.blk.ready ∧ almostFull.blk.inRange ∧ almostFull.contents = [0x42, 0x43, 0x44] ∧
    (almostFull.blk.contents.length : Int) < almostFull.blk.SIZE - 1 ∧
    0xFFFE < 2 ^ almostFull.params.aw ∧ 2 < 2 ^ almostFull.params.aw ∧ 0xFFFE + 2 - 1 ≤ 2 ^ almostFull.params.aw - 1 := by decide
/-- The commands of T6, from the smallest region to a full and again an empty one. -/
theorem witness_FifoOrder :
    two.blk.ready ∧ two.blk.inRange ∧ two.blk.EMPTY = true ∧
    (∀ i ∈ [Instr.room, .push 0x5A, .pop, .isEmpty], i.opcode ≠ .INIT ∧ i.opcode ≠ .FLUSH) ∧
    ∃ t, runCommands [.room, .push 0x5A, .pop, .isEmpty] two = .next t ∧ t.good :=
  ⟨by decide, by decide, by decide, by decide, _, rfl, rfl⟩
theorem witness_RoomAccounting :
    empty.blk.ready ∧ empty.blk.inRange ∧ empty.blk.EMPTY = true ∧
    (∀ i ∈ [Instr.push 1, .push 2, .pop], i.opcode ≠ .INIT ∧ i.opcode ≠ .FLUSH) ∧
    ∃ t, runCommands [.push 1, .push 2, .pop] empty = .next t ∧ t.good :=
  ⟨by decide, by decide, by decide, by decide, _, rfl, rfl⟩
theorem witness_AfterInitQueries :
    full.blk.FAULT = .noFault ∧
    ∀ o ∈ [(0, 2), (0, 65535), (1, 65535), (0xFFFE, 2)], o.1 < 2 ^ full.params.aw ∧ 2 ≤ o.2 ∧
      o.2 ≤ min (2 ^ full.params.aw - 1) (2 ^ full.params.aw - o.1) := by decide
/-- As many as there is room for, fewer, and none where there is no room. -/
theorem witness_FillingExactly :
    empty.blk.ready ∧ empty.blk.inRange ∧ (([1, 2, 3, 4] : List Nat).length : Int) = empty.blk.ROOMV ∧
    (([] : List Nat).length : Int) ≤ empty.blk.ROOMV ∧
    full.blk.ready ∧ full.blk.inRange ∧ (([] : List Nat).length : Int) = full.blk.ROOMV := by decide
theorem witness_DrainingExactly :
    full.blk.ready ∧ full.blk.inRange ∧ ((4 : Nat) : Int) = full.blk.OCC ∧ ((0 : Nat) : Int) ≤ full.blk.OCC ∧
    empty.blk.ready ∧ empty.blk.inRange ∧ ((0 : Nat) : Int) = empty.blk.OCC := by decide
theorem witness_MinimumSize :
    (two.blk.ready ∧ two.blk.inRange ∧ two.blk.SIZE = 2 ∧ two.blk.EMPTY = true) ∧
    twoFull.blk.ready ∧ twoFull.blk.inRange ∧ twoFull.blk.SIZE = 2 ∧ twoFull.blk.FULL = true := by decide
/-- The region at the top of the space, the pair of its two ends. -/
theorem witness_EveryPairReachable :
    State.reset.blk.FAULT = .noFault ∧ 0xFFFB < 2 ^ State.reset.params.aw ∧ 5 < 2 ^ State.reset.params.aw ∧ 2 ≤ 5 ∧
    0xFFFB + 5 - 1 ≤ 2 ^ State.reset.params.aw - 1 ∧ 0xFFFB ≤ 0xFFFF ∧ 0xFFFF ≤ 0xFFFB + 5 - 1 ∧ 0xFFFB ≤ 0xFFFB ∧
    0xFFFB ≤ 0xFFFB + 5 - 1 := by decide
/-- The consumer's commands alone, and both contexts' with as many PUSH as there was room for. -/
theorem witness_ProducerStability :
    almostFull.blk.ready ∧ almostFull.blk.inRange ∧
    (issuedOnlyBy .consumer [.isEmpty, .pop, .len, .flush] ∧ ∃ t, runCommands [.isEmpty, .pop, .len, .flush] almostFull = .next t) ∧
    issuedByContexts [.pop, .push 0x45, .flush] ∧ (countOf .PUSH [.pop, .push 0x45, .flush] : Int) ≤ almostFull.blk.ROOMV ∧
    ∃ t, runCommands [.pop, .push 0x45, .flush] almostFull = .next t :=
  ⟨by decide, by decide, ⟨by decide, _, rfl⟩, by decide, by decide, _, rfl⟩
theorem witness_ConsumerStability :
    almostFull.blk.ready ∧ almostFull.blk.inRange ∧ almostFull.blk.EMPTY = false ∧
    issuedOnlyBy .producer [.isFull, .push 0x45, .room, .len] ∧
    ∃ t, runCommands [.isFull, .push 0x45, .room, .len] almostFull = .next t ∧ t.good :=
  ⟨by decide, by decide, by decide, by decide, _, rfl, rfl⟩
/-- Away from the boundaries, at the empty one and at the full one. -/
theorem witness_PushPopCommute :
    (almostFull.blk.ready ∧ almostFull.blk.inRange ∧ 0 < almostFull.blk.OCC ∧ almostFull.blk.OCC < almostFull.blk.SIZE - 1) ∧
    (empty.blk.ready ∧ empty.blk.inRange ∧ empty.blk.OCC = 0) ∧
    full.blk.ready ∧ full.blk.inRange ∧ full.blk.OCC = full.blk.SIZE - 1 := by decide
theorem witness_HalvesInterleave :
    almostFull.blk.ready ∧ almostFull.blk.inRange ∧ almostFull.blk.FULL = false ∧ almostFull.blk.EMPTY = false := by decide

end Sys2Proof.Tests
end

section
/-! PROOFS. What one step does, by its next input: an equation for each, and the state it answers (20_memory.md R60). -/

namespace Sys2Proof.Machine

/-- A step without a command (R86). -/
theorem step_of_idle {s : State} (h : s.blk.nextInput = .idle) : step s = .next (s.withBlk s.blk.takeInput.quiet) := by
  rw [step, h]; rfl

/-- A reset event (R230). -/
theorem step_of_reset {s : State} (h : s.blk.nextInput = .reset) :
    step s = .next (s.withBlk s.blk.takeInput.takeReset) := by
  rw [step, h]; rfl

/-- A presented command acts on the block without its event (R60). -/
theorem step_of_command {s : State} {p : CommandPorts s.params.aw s.params.w} (h : s.blk.nextInput = .command p) :
    step s = .next (s.withBlk (s.blk.takeInput.after (decode p))) := by
  rw [step, h]; exact exec_eq_after (decode p) s.takeInput

/-- Every step replaces the block of the machine and nothing else. -/
theorem step_eq_withBlk (s : State) : ∃ b : Block s.params.aw s.params.w, step s = .next (s.withBlk b) := by
  cases h : s.blk.nextInput with
  | idle => exact ⟨_, step_of_idle h⟩
  | reset => exact ⟨_, step_of_reset h⟩
  | command p => exact ⟨_, step_of_command h⟩

/-- Settles O8: a step puts another block into the machine, which leaves the parameters. -/
theorem everyStepCompletes : Obligations.EveryStepCompletes := by
  intro s
  obtain ⟨b, hb⟩ := step_eq_withBlk s
  exact ⟨s.withBlk b, hb, s.withBlk_params b⟩

end Sys2Proof.Machine
end

section
/-! PROOFS. The registers after the second halves of PUSH and POP (20_memory.md R62), true by definition. -/

namespace Sys2Proof.Machine

variable {aw w : Nat} (b : Block aw w)

@[simp] theorem Block.pushAdvance_INITED : b.pushAdvance.INITED = b.INITED := rfl
@[simp] theorem Block.pushAdvance_BEGIN : b.pushAdvance.BEGIN = b.BEGIN := rfl
@[simp] theorem Block.pushAdvance_END : b.pushAdvance.END = b.END := rfl
@[simp] theorem Block.pushAdvance_HEAD : b.pushAdvance.HEAD = b.HEAD := rfl
@[simp] theorem Block.pushAdvance_TAIL : b.pushAdvance.TAIL = b.succ b.TAIL := rfl

@[simp] theorem Block.popAdvance_INITED : b.popAdvance.INITED = b.INITED := rfl
@[simp] theorem Block.popAdvance_BEGIN : b.popAdvance.BEGIN = b.BEGIN := rfl
@[simp] theorem Block.popAdvance_END : b.popAdvance.END = b.END := rfl
@[simp] theorem Block.popAdvance_HEAD : b.popAdvance.HEAD = b.succ b.HEAD := rfl
@[simp] theorem Block.popAdvance_TAIL : b.popAdvance.TAIL = b.TAIL := rfl

end Sys2Proof.Machine
end

section
/-! PROOFS. The positions as numbers: `succ` and `pred` on the region (10_state.md R26), the range (R25), the flags and the
occupancy (R28, R29, R124). -/

namespace Sys2Proof.Machine

variable {aw w : Nat}

@[simp] theorem Block.succ_END (b : Block aw w) : b.succ b.END = b.BEGIN := if_pos rfl
@[simp] theorem Block.pred_BEGIN (b : Block aw w) : b.pred b.BEGIN = b.END := if_pos rfl

theorem Block.succ_of_ne {b : Block aw w} {p : SlotAddr aw} (h : p ≠ b.END) : b.succ p = p + 1#aw := if_neg h
theorem Block.pred_of_ne {b : Block aw w} {p : SlotAddr aw} (h : p ≠ b.BEGIN) : b.pred p = p - 1#aw := if_neg h

/-- Below END the successor is the next integer: the addition does not wrap. -/
theorem Block.succ_toNat {b : Block aw w} {p : SlotAddr aw} (hle : p ≤ b.END) (hne : p ≠ b.END) :
    (b.succ p).toNat = p.toNat + 1 := by
  have hlt : p.toNat < b.END.toNat := BitVec.lt_def.mp (BitVec.lt_of_le_ne hle hne)
  have hEND := b.END.isLt
  rw [Block.succ_of_ne hne, BitVec.toNat_add, BitVec.toNat_ofNat, Nat.add_mod_mod, Nat.mod_eq_of_lt (by omega)]

/-- Above BEGIN the predecessor is the integer before: the subtraction does not wrap. -/
theorem Block.pred_toNat {b : Block aw w} {p : SlotAddr aw} (hle : b.BEGIN ≤ p) (hne : p ≠ b.BEGIN) :
    (b.pred p).toNat + 1 = p.toNat := by
  have hlt : b.BEGIN.toNat < p.toNat := BitVec.lt_def.mp (BitVec.lt_of_le_ne hle hne.symm)
  have hp := p.isLt
  have hone : (1#aw).toNat = 1 := Nat.mod_eq_of_lt (by omega)
  rw [Block.pred_of_ne hne, BitVec.toNat_sub_of_le (by rw [BitVec.le_def, hone]; omega), hone]
  omega

/-- The two ways `succ` moves inside the region, over the integers. -/
theorem Block.succ_toNat_cases (b : Block aw w) {p : SlotAddr aw} (h : p ≤ b.END) :
    (p.toNat = b.END.toNat ∧ (b.succ p).toNat = b.BEGIN.toNat) ∨
    (p.toNat < b.END.toNat ∧ (b.succ p).toNat = p.toNat + 1) := by
  by_cases hp : p = b.END
  · exact .inl ⟨by rw [hp], by rw [hp, Block.succ_END]⟩
  · exact .inr ⟨BitVec.lt_def.mp (BitVec.lt_of_le_ne h hp), Block.succ_toNat h hp⟩

/-- The two ways `pred` moves inside the region, over the integers. -/
theorem Block.pred_toNat_cases (b : Block aw w) {p : SlotAddr aw} (h : b.BEGIN ≤ p) :
    (p.toNat = b.BEGIN.toNat ∧ (b.pred p).toNat = b.END.toNat) ∨
    (b.BEGIN.toNat < p.toNat ∧ (b.pred p).toNat + 1 = p.toNat) := by
  by_cases hp : p = b.BEGIN
  · exact .inl ⟨by rw [hp], by rw [hp, Block.pred_BEGIN]⟩
  · exact .inr ⟨BitVec.lt_def.mp (BitVec.lt_of_le_ne h (Ne.symm hp)), Block.pred_toNat h hp⟩

/-- `succ` stays in the region. -/
theorem Block.succ_mem_region {b : Block aw w} {p : SlotAddr aw} (hB : b.BEGIN ≤ p) (hE : p ≤ b.END) :
    b.BEGIN ≤ b.succ p ∧ b.succ p ≤ b.END := by
  have hcases := b.succ_toNat_cases hE
  simp only [BitVec.le_def] at hB hE ⊢
  omega

/-- `pred` stays in the region. -/
theorem Block.pred_mem_region {b : Block aw w} {p : SlotAddr aw} (hB : b.BEGIN ≤ p) (hE : p ≤ b.END) :
    b.BEGIN ≤ b.pred p ∧ b.pred p ≤ b.END := by
  have hcases := b.pred_toNat_cases hB
  simp only [BitVec.le_def] at hB hE ⊢
  omega

/-- `pred` undoes `succ` on the region: one slot on is not BEGIN, unless `succ` wrapped. -/
theorem Block.pred_succ {b : Block aw w} {p : SlotAddr aw} (hB : b.BEGIN ≤ p) (hE : p ≤ b.END) :
    b.pred (b.succ p) = p := by
  by_cases hp : p = b.END
  · rw [hp, Block.succ_END, Block.pred_BEGIN]
  · have hsucc : b.succ p ≠ b.BEGIN := fun h => by
      have hnat := Block.succ_toNat hE hp
      rw [h] at hnat
      rw [BitVec.le_def] at hB
      omega
    rw [Block.pred_of_ne hsucc, Block.succ_of_ne hp, BitVec.add_sub_cancel]

/-- `succ` undoes `pred` on the region: one slot back is not END, unless `pred` wrapped. -/
theorem Block.succ_pred {b : Block aw w} {p : SlotAddr aw} (hB : b.BEGIN ≤ p) (hE : p ≤ b.END) :
    b.succ (b.pred p) = p := by
  by_cases hp : p = b.BEGIN
  · rw [hp, Block.pred_BEGIN, Block.succ_END]
  · have hpred : b.pred p ≠ b.END := fun h => by
      have hnat := Block.pred_toNat hB hp
      rw [h] at hnat
      rw [BitVec.le_def] at hE
      omega
    rw [Block.succ_of_ne hpred, Block.pred_of_ne hp, BitVec.sub_add_cancel]

/-- Settles O40: the values of `succ` and `pred` one by one, then that they stay in the region and undo each other. -/
theorem succPred : Obligations.SuccPred := by
  intro aw w b p hB hE
  obtain ⟨hsuccB, hsuccE⟩ := Block.succ_mem_region hB hE
  obtain ⟨hpredB, hpredE⟩ := Block.pred_mem_region hB hE
  refine ⟨?_, Block.succ_toNat hE, ?_, fun hne => ?_, hsuccB, hsuccE, hpredB, hpredE,
    Block.pred_succ hB hE, Block.succ_pred hB hE⟩
  · rintro rfl; exact b.succ_END
  · rintro rfl; exact b.pred_BEGIN
  · have hnat := Block.pred_toNat hB hne
    omega

/-- The range invariant is a statement about numbers. -/
theorem Block.inRange_iff_toNat (b : Block aw w) :
    b.inRange ↔ b.BEGIN.toNat < b.END.toNat ∧ b.BEGIN.toNat ≤ b.HEAD.toNat ∧ b.HEAD.toNat ≤ b.END.toNat ∧
      b.BEGIN.toNat ≤ b.TAIL.toNat ∧ b.TAIL.toNat ≤ b.END.toNat := by
  simp only [Block.inRange, BitVec.lt_def, BitVec.le_def]

/-- EMPTY over the integers (R28). -/
theorem Block.EMPTY_iff_toNat (b : Block aw w) : b.EMPTY = true ↔ b.HEAD.toNat = b.TAIL.toNat := by
  rw [Block.EMPTY_iff, BitVec.toNat_inj]

/-- FULL over the integers (R29). -/
theorem Block.FULL_iff_toNat (b : Block aw w) :
    b.FULL = true ↔
      (b.HEAD.toNat = b.BEGIN.toNat ∧ b.TAIL.toNat = b.END.toNat) ∨ b.TAIL.toNat + 1 = b.HEAD.toNat := by
  rw [Block.FULL_iff, BitVec.toNat_inj, BitVec.toNat_inj]
  exact or_congr_right (by omega)

/-- OCC without ROOMV (R124): how far TAIL is ahead of HEAD, once around the region where it stands before it. -/
theorem Block.OCC_cases (b : Block aw w) :
    (b.TAIL.toNat < b.HEAD.toNat ∧
      b.OCC = ((b.TAIL.toNat : Int) - b.HEAD.toNat) + ((b.END.toNat : Int) - b.BEGIN.toNat + 1)) ∨
    (b.HEAD.toNat ≤ b.TAIL.toNat ∧ b.OCC = (b.TAIL.toNat : Int) - b.HEAD.toNat) := by
  unfold Block.OCC Block.ROOMV Block.LENV
  split <;> omega

/-- OCC is a number of slots of the region, less than SIZE of them (R124). -/
theorem Block.OCC_range {b : Block aw w} (h : b.inRange) : 0 ≤ b.OCC ∧ b.OCC ≤ b.SIZE - 1 := by
  have hpos := b.inRange_iff_toNat.mp h
  have hocc := b.OCC_cases
  rw [Block.SIZE, Block.LENV]
  omega

/-- No slot is held exactly when the buffer is empty (R124). -/
theorem Block.OCC_eq_zero_iff {b : Block aw w} (h : b.inRange) : b.OCC = 0 ↔ b.EMPTY = true := by
  have hpos := b.inRange_iff_toNat.mp h
  have hocc := b.OCC_cases
  rw [Block.EMPTY_iff_toNat]
  omega

/-- All slots but one are held exactly when the buffer is full (R124). -/
theorem Block.OCC_eq_max_iff {b : Block aw w} (h : b.inRange) : b.OCC = b.SIZE - 1 ↔ b.FULL = true := by
  have hpos := b.inRange_iff_toNat.mp h
  have hocc := b.OCC_cases
  rw [Block.FULL_iff_toNat, Block.SIZE, Block.LENV]
  omega

/-- A region has at least two slots (R25). -/
theorem Block.two_le_SIZE {b : Block aw w} (h : b.inRange) : 2 ≤ b.SIZE := by
  obtain ⟨hBE, -⟩ := b.inRange_iff_toNat.mp h
  rw [Block.SIZE, Block.LENV]
  omega

/-- Settles O42: EMPTY is OCC = 0 and FULL is OCC = SIZE - 1, two different numbers in the range of OCC. -/
theorem emptyFullExclusive : Obligations.EmptyFullExclusive := by
  intro aw w b h
  have hsize := Block.two_le_SIZE h
  have hocc := Block.OCC_range h
  rw [← Bool.not_eq_true, ← Bool.not_eq_true, ← Block.OCC_eq_zero_iff h, ← Block.OCC_eq_max_iff h]
  omega

end Sys2Proof.Machine
end

section
/-! PROOFS. Where a command may move the registers: five ways, read off `Block.Effect` once (10_state.md R37), and what follows for
the write columns, the ranges of R25 and FAULT. -/

namespace Sys2Proof.Machine

variable {aw w : Nat}

/-- The effects of a command, sorted by what becomes of the positions, INITED and the storage. -/
inductive Block.Moves : Instr → Block aw w → Block aw w → Prop where
  /-- a query, a fault, or nothing at all. -/
  | kept (i : Instr) {b c : Block aw w} (hregs : b.sameButFault c) (hmem : c.MEM = b.MEM) : Moves i b c
  /-- an INIT that installs its region (R100). -/
  | installed {base size : Nat} {b : Block aw w} (hr : ¬ initRejects (addrOperand aw base) (addrOperand aw size)) :
      Moves (.init base size) b (b.install (addrOperand aw base) (addrOperand aw size))
  /-- a PUSH that stores (R130). -/
  | pushed {elem : Nat} {b : Block aw w} (hi : b.INITED = true) (hF : b.FULL = false) :
      Moves (.push elem) b (b.pushStore (elemOperand w elem)).pushAdvance
  /-- a POP that answers (R131). -/
  | popped {b : Block aw w} (hi : b.INITED = true) (hE : b.EMPTY = false) : Moves .pop b b.popLoad.popAdvance
  /-- a FLUSH that runs (R150). -/
  | flushed {b : Block aw w} (hi : b.INITED = true) : Moves .flush b (b.quiet.setHead b.TAIL)

/-- Every effect is one of the five moves; all others keep the positions, INITED and the storage. -/
theorem Block.Effect.moves {i : Instr} {b c : Block aw w} (h : Block.Effect i b c) : Block.Moves i b c := by
  cases h with
  | installed hf hr => exact .installed hr
  | pushed hi hf hF => exact .pushed hi hF
  | popped hi hf hE => exact .popped hi hE
  | flushed hi hf => exact .flushed hi
  | _ => exact .kept _ ⟨rfl, rfl, rfl, rfl, rfl⟩ rfl

/-- Settles O31: each move writes the registers of its command's column, and nobody else's. -/
theorem writeSets : Obligations.WriteSets := by
  intro i s b h
  cases (effect_of_exec h).moves with
  | kept i hregs hmem =>
    obtain ⟨hI, hB, hE, hH, hT⟩ := hregs
    simp [hI, hB, hE, hH, hT]
  | installed hr => simp [Instr.opcode]
  | pushed hi hF => simp [Instr.opcode, Block.pushStore]
  | popped hi hE => simp [Instr.opcode, Block.popLoad]
  | flushed hi => simp [Instr.opcode]

/-- A region INIT accepts has BEGIN < END, with both cursors at BEGIN (R100). -/
theorem Block.install_inRange (b : Block aw w) {base size : BitVec aw} (h : ¬ initRejects base size) :
    (b.install base size).inRange := by
  have hEND := install_END_toNat h
  rw [initRejects, not_or] at h
  rw [Block.inRange_iff_toNat]
  simp only [Block.install_BEGIN, Block.install_END, Block.install_HEAD, Block.install_TAIL]
  omega

/-- Moving TAIL one slot on stays in range. -/
theorem Block.pushAdvance_inRange {b : Block aw w} (h : b.inRange) : b.pushAdvance.inRange := by
  obtain ⟨hBE, hBH, hHE, hBT, hTE⟩ := h
  exact ⟨hBE, hBH, hHE, Block.succ_mem_region hBT hTE⟩

/-- Moving HEAD one slot on stays in range. -/
theorem Block.popAdvance_inRange {b : Block aw w} (h : b.inRange) : b.popAdvance.inRange := by
  obtain ⟨hBE, hBH, hHE, hBT, hTE⟩ := h
  obtain ⟨hBS, hSE⟩ := Block.succ_mem_region hBH hHE
  exact ⟨hBE, hBS, hSE, hBT, hTE⟩

/-- The range invariant is about the four positions alone. -/
theorem Block.inRange_congr {b c : Block aw w} (hregs : b.sameButFault c) : c.inRange ↔ b.inRange := by
  obtain ⟨-, hB, hE, hH, hT⟩ := hregs
  rw [Block.inRange, Block.inRange, hB, hE, hH, hT]

/-- A command keeps the ranges of R25, and an INIT that completes establishes them (R170). -/
theorem Block.Moves.inRange {i : Instr} {b c : Block aw w} (h : Block.Moves i b c)
    (hb : b.INITED = true → b.inRange) : c.INITED = true → c.inRange := by
  cases h with
  | kept i hregs hmem => exact fun hi => (Block.inRange_congr hregs).mpr (hb (hregs.1 ▸ hi))
  | installed hr => exact fun _ => b.install_inRange hr
  | pushed hi hF => exact fun _ => Block.pushAdvance_inRange (hb hi)
  | popped hi hE => exact fun _ => Block.popAdvance_inRange (hb hi)
  | flushed hi =>
    obtain ⟨hBE, -, -, hBT, hTE⟩ := hb hi
    exact fun _ => ⟨hBE, hBT, hTE, hBT, hTE⟩

/-- Settles O37, by the moves of a command. -/
theorem commandsPreserveRanges : Obligations.CommandsPreserveRanges := by
  intro i s t hs h
  obtain ⟨b, rfl, heff⟩ := exec_next h
  exact heff.moves.inRange hs

/-- While FAULT != 0 the only effect of a command is none (R207). -/
theorem Block.Effect.eq_quiet_of_fault {i : Instr} {b c : Block aw w} (h : Block.Effect i b c)
    (hf : b.FAULT ≠ .noFault) : c = b.quiet := by
  cases h with
  | stopped => rfl
  | _ => contradiction

/-- The next input is a reset only where a reset event is next. -/
theorem Block.inputs_of_nextInput_reset {b : Block aw w} (h : b.nextInput = .reset) :
    ∃ rest, b.inputs = .reset :: rest := by
  rcases b.nextInput_cases with ⟨-, hn⟩ | ⟨rest, hr, -⟩ | ⟨_, _, _, -, -, hn⟩ | ⟨_, _, _, -, -, hn⟩
  · simp [hn] at h
  · exact ⟨rest, hr⟩
  · simp [hn] at h
  · simp [hn] at h

/-- Settles O28: the step without a command and every command keep a FAULT that is set, so the step was a reset. -/
theorem onlyResetLeavesFault : Obligations.OnlyResetLeavesFault := by
  intro s t h hf hne
  rcases step_cases h with ⟨-, rfl⟩ | ⟨hn, -⟩ | ⟨p, -, hexec⟩
  · exact absurd rfl hne
  · exact Block.inputs_of_nextInput_reset hn
  · obtain ⟨b, rfl, heff⟩ := exec_next hexec
    have hb : b = s.blk.takeInput.quiet := heff.eq_quiet_of_fault hf
    rw [hb] at hne
    exact absurd rfl hne

end Sys2Proof.Machine
end

section
/-! PROOFS. The held slots under PUSH and POP: a walk of OCC slots from HEAD ends at TAIL, so a PUSH adds the slot at the old TAIL at
the end and a POP takes the slot at the old HEAD from the front (42_depth_queries.md R124, 20_memory.md R58). -/

namespace Sys2Proof.Machine

variable {aw w : Nat}

/-- Advancing HEAD off a held slot leaves one slot less (R131). -/
theorem Block.OCC_popAdvance {b : Block aw w} (h : b.inRange) (hE : b.EMPTY = false) :
    b.popAdvance.OCC = b.OCC - 1 := by
  have hpos := b.inRange_iff_toNat.mp h
  obtain ⟨-, -, hHE, -, -⟩ := h
  have hnot := mt b.EMPTY_iff_toNat.mpr (by simp [hE])
  have hsucc := b.succ_toNat_cases hHE
  have hbefore := b.OCC_cases
  have hafter := b.popAdvance.OCC_cases
  simp only [Block.popAdvance_HEAD, Block.popAdvance_TAIL, Block.popAdvance_BEGIN, Block.popAdvance_END] at hafter
  omega

/-- Advancing TAIL onto a free slot leaves one slot more (R130). -/
theorem Block.OCC_pushAdvance {b : Block aw w} (h : b.inRange) (hF : b.FULL = false) :
    b.pushAdvance.OCC = b.OCC + 1 := by
  have hpos := b.inRange_iff_toNat.mp h
  obtain ⟨-, -, -, -, hTE⟩ := h
  have hnot := mt b.FULL_iff_toNat.mpr (by simp [hF])
  have hsucc := b.succ_toNat_cases hTE
  have hbefore := b.OCC_cases
  have hafter := b.pushAdvance.OCC_cases
  simp only [Block.pushAdvance_HEAD, Block.pushAdvance_TAIL, Block.pushAdvance_BEGIN, Block.pushAdvance_END] at hafter
  omega

/-- OCC slots on from HEAD stands TAIL: the walk by induction on its length, HEAD one slot on at each turn. -/
theorem Block.iterate_succ_HEAD {b : Block aw w} (h : b.inRange) : b.succ^[b.OCC.toNat] b.HEAD = b.TAIL := by
  generalize hn : b.OCC.toNat = n
  have h0 := (Block.OCC_range h).1
  induction n generalizing b with
  | zero => exact b.EMPTY_iff.mp ((Block.OCC_eq_zero_iff h).mp (by omega))
  | succ n ih =>
    have hE : b.EMPTY = false := by
      rw [← Bool.not_eq_true, ← Block.OCC_eq_zero_iff h]
      omega
    have hpop := Block.OCC_popAdvance h hE
    exact ih (Block.popAdvance_inRange h) (by omega) (by omega)

/-- The walk's last slot. -/
theorem Block.slotsFrom_succ_last (b : Block aw w) (p : SlotAddr aw) (n : Nat) :
    b.slotsFrom p (n + 1) = b.slotsFrom p n ++ [b.succ^[n] p] := by
  induction n generalizing p with
  | zero => rfl
  | succ n ih => rw [Block.slotsFrom, ih, Function.iterate_succ_apply, Block.slotsFrom, List.cons_append]

/-- An empty buffer holds no slot. -/
theorem Block.heldSlots_of_empty {b : Block aw w} (h : b.HEAD = b.TAIL) : b.heldSlots = [] := by
  have hocc : b.OCC = 0 := by
    have hcases := b.OCC_cases
    rw [h] at hcases
    omega
  rw [Block.heldSlots, hocc]
  rfl

/-- A PUSH holds the slot at the old TAIL after those held before. -/
theorem Block.heldSlots_pushAdvance {b : Block aw w} (h : b.inRange) (hF : b.FULL = false) :
    b.pushAdvance.heldSlots = b.heldSlots ++ [b.TAIL] := by
  have hocc : b.pushAdvance.OCC.toNat = b.OCC.toNat + 1 := by
    have h0 := (Block.OCC_range h).1
    rw [Block.OCC_pushAdvance h hF]
    omega
  calc b.pushAdvance.heldSlots
      = b.slotsFrom b.HEAD (b.OCC.toNat + 1) := by
        rw [Block.heldSlots, hocc, Block.slotsFrom_congr b.pushAdvance_BEGIN b.pushAdvance_END, Block.pushAdvance_HEAD]
    _ = b.heldSlots ++ [b.TAIL] := by
        rw [Block.slotsFrom_succ_last, Block.iterate_succ_HEAD h, Block.heldSlots]

/-- A POP gives up the slot at the old HEAD and holds the others still. -/
theorem Block.heldSlots_eq_cons_popAdvance {b : Block aw w} (h : b.inRange) (hE : b.EMPTY = false) :
    b.heldSlots = b.HEAD :: b.popAdvance.heldSlots := by
  have hocc : b.OCC.toNat = b.popAdvance.OCC.toNat + 1 := by
    have hpop := Block.OCC_popAdvance h hE
    have h0 := (Block.OCC_range (Block.popAdvance_inRange h)).1
    omega
  rw [Block.heldSlots, hocc, Block.slotsFrom, Block.heldSlots,
    Block.slotsFrom_congr b.popAdvance_BEGIN b.popAdvance_END, Block.popAdvance_HEAD]

/-- A store takes no slot's value away. -/
theorem Block.slot_storeSlot_isSome {b : Block aw w} (a : SlotAddr aw) (v : Elem w) {c : SlotAddr aw}
    (h : c = a ∨ (b.slot c).isSome = true) : ((b.storeSlot a v).slot c).isSome = true := by
  by_cases hc : c = a
  · rw [hc, Block.slot_storeSlot_same, Option.isSome_some]
  · rw [Block.slot_storeSlot_other b v hc]
    exact h.resolve_left hc

/-- After a PUSH every held slot is written: the new one by the PUSH, the others from before (20_memory.md R57). -/
theorem Block.heldWritten_pushed {b : Block aw w} (h : b.inRange) (hF : b.FULL = false) (hw : b.heldWritten)
    (e : Elem w) : (b.pushStore e).pushAdvance.heldWritten := by
  intro a ha
  have hheld : (b.pushStore e).pushAdvance.heldSlots = b.pushAdvance.heldSlots :=
    Block.heldSlots_congr rfl rfl rfl rfl
  rw [hheld, Block.heldSlots_pushAdvance h hF, List.mem_append, List.mem_singleton] at ha
  exact Block.slot_storeSlot_isSome b.TAIL e (ha.symm.imp_right (hw a))

/-- After a POP every held slot is written: it was held before. -/
theorem Block.heldWritten_popped {b : Block aw w} (h : b.inRange) (hE : b.EMPTY = false) (hw : b.heldWritten) :
    b.popLoad.popAdvance.heldWritten := by
  intro a ha
  have hheld : b.popLoad.popAdvance.heldSlots = b.popAdvance.heldSlots := Block.heldSlots_congr rfl rfl rfl rfl
  rw [hheld] at ha
  exact hw a (by rw [Block.heldSlots_eq_cons_popAdvance h hE]; exact List.mem_cons_of_mem _ ha)

/-- Where no slot is held, none is unwritten. -/
theorem Block.heldWritten_of_empty {b : Block aw w} (h : b.HEAD = b.TAIL) : b.heldWritten := by
  simp [Block.heldWritten, Block.heldSlots_of_empty h]

/-- That held slots are written is about the positions and the storage alone. -/
theorem Block.heldWritten_congr {b c : Block aw w} (hregs : b.sameButFault c) (hmem : c.MEM = b.MEM) :
    c.heldWritten ↔ b.heldWritten := by
  obtain ⟨-, hB, hE, hH, hT⟩ := hregs
  simp only [Block.heldWritten, Block.slot, Block.heldSlots_congr hB hE hH hT, hmem]

end Sys2Proof.Machine
end

section
/-! PROOFS. The invariant: reset has it, and every step keeps it (10_state.md R25, 20_memory.md R57, 42_depth_queries.md R122). -/

namespace Sys2Proof.Machine

variable {aw w : Nat}

/-- The invariant is about INITED, the positions and the storage. -/
theorem Block.Inv.congr {b c : Block aw w} (h : b.Inv) (hregs : b.sameButFault c) (hmem : c.MEM = b.MEM) : c.Inv := by
  obtain ⟨hwf, hinit⟩ := h
  refine ⟨hmem ▸ hwf, fun hi => ?_⟩
  obtain ⟨hrange, hlen, hw⟩ := hinit (hregs.1 ▸ hi)
  have hLENV : c.LENV = b.LENV := by
    obtain ⟨-, hB, hE, -, -⟩ := hregs
    simp only [Block.LENV, hB, hE]
  exact ⟨(Block.inRange_congr hregs).mpr hrange, hLENV ▸ hlen, (Block.heldWritten_congr hregs hmem).mpr hw⟩

/-- A block that is not initialised has the invariant as soon as its storage is in the canonical form. -/
theorem Block.Inv.of_uninitialised {b : Block aw w} (hwf : Memory.wf aw b.MEM) (hi : b.INITED = false) : b.Inv :=
  ⟨hwf, fun h => absurd h (by simp [hi])⟩

/-- LENV of an accepted region is at most 2^AW - 2: the port `cmd_size` carries no more than 2^AW - 1 (R122). -/
theorem Block.install_LENV_le (b : Block aw w) {base size : BitVec aw} (h : ¬ initRejects base size) :
    (b.install base size).LENV ≤ 2 ^ aw - 2 := by
  have hpow : ((2 ^ aw : Nat) : Int) = (2 : Int) ^ aw := by push_cast; rfl
  have hsize := size.isLt
  have hEND := install_END_toNat h
  rw [initRejects, not_or] at h
  simp only [Block.LENV, Block.install_BEGIN, Block.install_END]
  omega

/-- A command keeps the invariant, whichever way it moves the registers. -/
theorem Block.Moves.inv {i : Instr} {b c : Block aw w} (h : Block.Moves i b c) (hb : b.Inv) : c.Inv := by
  have hrange := h.inRange fun hi => (hb.2 hi).1
  obtain ⟨hwf, hinit⟩ := hb
  cases h with
  | kept i hregs hmem => exact Block.Inv.congr ⟨hwf, hinit⟩ hregs hmem
  | installed hr => exact ⟨hwf, fun hi => ⟨hrange hi, b.install_LENV_le hr, Block.heldWritten_of_empty rfl⟩⟩
  | pushed hi hF =>
    obtain ⟨hin, hlen, hw⟩ := hinit hi
    exact ⟨Memory.write_wf hwf b.TAIL.isLt _, fun hi' => ⟨hrange hi', hlen, Block.heldWritten_pushed hin hF hw _⟩⟩
  | popped hi hE =>
    obtain ⟨hin, hlen, hw⟩ := hinit hi
    exact ⟨hwf, fun hi' => ⟨hrange hi', hlen, Block.heldWritten_popped hin hE hw⟩⟩
  | flushed hi =>
    obtain ⟨-, hlen, -⟩ := hinit hi
    exact ⟨hwf, fun hi' => ⟨hrange hi', hlen, Block.heldWritten_of_empty rfl⟩⟩

/-- Settles O35: the step without a command moves nothing, reset leaves no buffer and an empty storage, and a command keeps the
invariant whichever way it moves the registers. -/
theorem stepKeepsInv : Obligations.StepKeepsInv := by
  intro s t hs h
  rcases step_cases h with ⟨-, rfl⟩ | ⟨-, rfl⟩ | ⟨p, -, hexec⟩
  · exact Block.Inv.congr hs ⟨rfl, rfl, rfl, rfl, rfl⟩ rfl
  · exact .of_uninitialised (Memory.wf_nil _) rfl
  · obtain ⟨b, rfl, heff⟩ := exec_next hexec
    have htaken : s.takeInput.blk.Inv := Block.Inv.congr hs ⟨rfl, rfl, rfl, rfl, rfl⟩ rfl
    exact heff.moves.inv htaken

/-- Settles O12: the three values as the spec states them; no slot is listed. -/
theorem resetState : Obligations.ResetState := ⟨rfl, rfl, fun a => Memory.read_nil a.toNat⟩

/-- Settles O36: right after reset there is no buffer and the storage is empty. -/
theorem resetHasInv : Obligations.ResetHasInv := Block.Inv.of_uninitialised (Memory.wf_nil _) rfl

end Sys2Proof.Machine
end

section
/-! PROOFS. The status wires (10_state.md R35) and the answers of IS_EMPTY and IS_FULL (41_status_queries.md R110, R111). -/

namespace Sys2Proof.Machine

variable {aw w : Nat}

/-- Once initialised the wire `empty` is EMPTY. -/
theorem Block.emptyWire_of_inited {b : Block aw w} (h : b.INITED = true) : b.emptyWire = b.EMPTY := if_pos h

/-- Once initialised the wire `full` is FULL. -/
theorem Block.fullWire_of_inited {b : Block aw w} (h : b.INITED = true) : b.fullWire = b.FULL := if_pos h

/-- Where it executes, IS_EMPTY answers EMPTY (R110). -/
theorem exec_isEmpty_of_ready {s : State} (h : s.blk.ready) :
    exec .isEmpty s = .next (s.withBlk (s.blk.answerFlag s.blk.EMPTY)) := by
  obtain ⟨hi, hf⟩ := h
  rw [exec_eq_after, Block.after, Block.isEmptyCmd, Block.whenReady_ready hi hf]

/-- Where it executes, IS_FULL answers FULL (R111). -/
theorem exec_isFull_of_ready {s : State} (h : s.blk.ready) :
    exec .isFull s = .next (s.withBlk (s.blk.answerFlag s.blk.FULL)) := by
  obtain ⟨hi, hf⟩ := h
  rw [exec_eq_after, Block.after, Block.isFullCmd, Block.whenReady_ready hi hf]

/-- Settles O48: the codes of FAULT by its five values, the two flags by the wires' equations, and the answers by what the two
commands do where they execute. -/
theorem statusWires : Obligations.StatusWires := by
  intro s
  have hcode {f : FaultCode} (h : s.blk.FAULT = f) : s.blk.faultWires = f.code := congrArg FaultCode.code h
  refine ⟨rfl, hcode, hcode, hcode, hcode, hcode, fun hi => ?_, fun hr => ?_⟩
  · rw [Block.emptyWire_of_inited hi, Block.fullWire_of_inited hi]
    exact ⟨rfl, rfl, s.blk.EMPTY_iff, s.blk.FULL_iff⟩
  · exact ⟨_, _, exec_isEmpty_of_ready hr, exec_isFull_of_ready hr,
      Block.emptyWire_of_inited hr.1, Block.fullWire_of_inited hr.1⟩

end Sys2Proof.Machine
end

section
/-! PROOFS. The step of a presented command (20_memory.md R60, 30_encoding.md R88), from the ports and from a packed word. -/

namespace Sys2Proof

/-- What the decoder reads always fits the ports it was read from (30_encoding.md R83, R85). -/
theorem wellFormed_decode {aw w : Nat} (p : CommandPorts aw w) : WellFormed aw w (decode p) = true := by
  unfold decode
  cases Opcode.ofBits p.op with
  | INIT => simp [WellFormed, p.base.isLt, p.size.isLt]
  | PUSH => simp [WellFormed, p.elem.isLt]
  | _ => rfl

/-- A word the decoder does not refuse is decoded through its ports. -/
theorem decode_ofWord_of_decodeWord {aw w nbits word : Nat} {i : Instr} (h : decodeWord aw w nbits word = .ok i) :
    decode (CommandPorts.ofWord aw w nbits word) = i := by
  unfold decodeWord at h
  split at h
  · contradiction
  · exact Except.ok.inj h

namespace Machine

/-- A valid sample of the ports is the next input (R86, R88). -/
theorem Block.nextInput_of_present {aw w : Nat} {b : Block aw w} {who : Agent} {p : CommandPorts aw w}
    {rest : List (Event aw w)} (h : b.inputs = .present who p :: rest) (hv : p.valid = true) :
    b.nextInput = .command p := by
  simp [Block.nextInput, h, hv]

/-- A step with a command presented is that command on the machine without the event. -/
theorem step_eq_exec {s : State} {p : CommandPorts s.params.aw s.params.w} (h : s.blk.nextInput = .command p) :
    step s = exec (decode p) s.takeInput := by
  rw [step, h]

/-- Taking the event just presented gives the machine back. -/
theorem State.takeInput_withFetchWord (s : State) (nbits word : Nat) : (s.withFetchWord nbits word).takeInput = s := rfl

/-- Settles O6: the presented sample is the next input, and its operands are port values. -/
theorem stepRunsPresented : Obligations.StepRunsPresented := by
  intro s who p rest hin hv
  have htaken : s.takeInput = s.withBlk { s.blk with inputs := rest } := by
    rw [State.takeInput, Block.takeInput, hin, List.tail_cons]
  exact ⟨wellFormed_decode p, htaken ▸ step_eq_exec (Block.nextInput_of_present hin hv)⟩

/-- Settles O7: the placed word is the next input, and without it the machine is the one it was placed in. -/
theorem stepRunsFetchWord : Obligations.StepRunsFetchWord := by
  intro s nbits word i hdec
  have hnext : (s.withFetchWord nbits word).blk.nextInput = .command (CommandPorts.ofWord _ _ nbits word) :=
    Block.nextInput_of_present rfl rfl
  rw [step_eq_exec hnext, State.takeInput_withFetchWord]
  exact congrArg (exec · s) (decode_ofWord_of_decodeWord hdec)

end Machine

end Sys2Proof
end

section
/-! PROOFS. The storage accesses of a command: only a PUSH that stores and a POP that answers make one (20_memory.md R52, R53, R57). -/

namespace Sys2Proof.Machine

variable {aw w : Nat}

/-- The effects of a command, sorted by the access they make to the storage (R52). -/
theorem Block.Effect.access_cases {i : Instr} {b c : Block aw w} (h : Block.Effect i b c) :
    (c.noAccess ∧ c.MEM = b.MEM) ∨
    (∃ elem, i = .push elem ∧ b.INITED = true ∧ c = (b.pushStore (elemOperand w elem)).pushAdvance) ∨
    (i = .pop ∧ b.INITED = true ∧ c = b.popLoad.popAdvance) := by
  cases h with
  | pushed hi hf hF => exact .inr (.inl ⟨_, rfl, hi, rfl⟩)
  | popped hi hf hE => exact .inr (.inr ⟨rfl, hi, rfl⟩)
  | _ => exact .inl ⟨⟨rfl, rfl⟩, rfl⟩

/-- A PUSH that stores drives a write of the slot at the old TAIL, and no read. -/
theorem Block.pushed_out (b : Block aw w) (e : Elem w) :
    (b.pushStore e).pushAdvance.out.memWe = true ∧ (b.pushStore e).pushAdvance.out.memRe = false ∧
      (b.pushStore e).pushAdvance.out.memAddr = b.TAIL := ⟨rfl, rfl, rfl⟩

/-- A POP that answers drives a read of the slot at the old HEAD, and no write. -/
theorem Block.popped_out (b : Block aw w) :
    b.popLoad.popAdvance.out.memWe = false ∧ b.popLoad.popAdvance.out.memRe = true ∧
      b.popLoad.popAdvance.out.memAddr = b.HEAD := ⟨rfl, rfl, rfl⟩

/-- A PUSH that stores keeps every slot but the one at the old TAIL. -/
theorem Block.slot_pushed_other (b : Block aw w) (e : Elem w) {a : SlotAddr aw} (h : a ≠ b.TAIL) :
    (b.pushStore e).pushAdvance.slot a = b.slot a := Block.slot_storeSlot_other b e h

/-- Settles O30, by the access the command makes. -/
theorem storageAccesses : Obligations.StorageAccesses := by
  intro i s b h
  rcases (effect_of_exec h).access_cases with ⟨⟨hwe, hre⟩, hmem⟩ | ⟨elem, rfl, -, rfl⟩ | ⟨rfl, -, rfl⟩
  · have hslot (a) : b.slot a = s.blk.slot a := by rw [Block.slot, Block.slot, hmem]
    simp [hwe, hre, hslot]
  · obtain ⟨hwe, hre, haddr⟩ := s.blk.pushed_out (elemOperand _ elem)
    refine ⟨fun _ => ⟨rfl, haddr⟩, by simp [hre], fun a hne => ⟨rfl, ?_, hwe⟩⟩
    by_contra ha
    exact hne (Block.slot_pushed_other s.blk _ ha)
  · obtain ⟨hwe, hre, haddr⟩ := s.blk.popped_out
    exact ⟨by simp [hwe], fun _ => ⟨rfl, haddr⟩, fun a hne => absurd rfl hne⟩

/-- Where the last step accessed the storage, the slot is one of an initialised buffer's region (R53). -/
def Block.accessInRegion (b : Block aw w) : Prop :=
  b.out.memWe = true ∨ b.out.memRe = true → b.INITED = true ∧ b.BEGIN ≤ b.out.memAddr ∧ b.out.memAddr ≤ b.END

/-- A step without an access makes none outside the region. -/
theorem Block.accessInRegion_of_noAccess {b : Block aw w} (h : b.noAccess) : b.accessInRegion := by
  obtain ⟨hwe, hre⟩ := h
  simp [Block.accessInRegion, hwe, hre]

/-- A command on a buffer in range accesses its region only, because both cursors stand there. -/
theorem Block.Effect.accessInRegion {i : Instr} {b c : Block aw w} (h : Block.Effect i b c)
    (hb : b.INITED = true → b.inRange) : c.accessInRegion := by
  rcases h.access_cases with ⟨hno, -⟩ | ⟨elem, -, hi, rfl⟩ | ⟨-, hi, rfl⟩
  · exact Block.accessInRegion_of_noAccess hno
  · obtain ⟨-, -, -, hBT, hTE⟩ := hb hi
    exact fun _ => ⟨hi, hBT, hTE⟩
  · obtain ⟨-, hBH, hHE, -, -⟩ := hb hi
    exact fun _ => ⟨hi, hBH, hHE⟩

/-- Settles O38: idle steps and resets access nothing, and a command finds both cursors in the region by the invariant. -/
theorem accessesInsideRegion : Obligations.AccessesInsideRegion := by
  intro s t hs h
  rcases step_cases h with ⟨-, rfl⟩ | ⟨-, rfl⟩ | ⟨p, -, hexec⟩
  · exact Block.accessInRegion_of_noAccess ⟨rfl, rfl⟩
  · exact Block.accessInRegion_of_noAccess ⟨rfl, rfl⟩
  · obtain ⟨b, rfl, heff⟩ := exec_next hexec
    exact heff.accessInRegion fun hi => (hs.2 hi).1

/-- On a ready buffer that is not empty POP is its two halves (43_data_transfer.md R131). -/
theorem Block.popCmd_of_ready {b : Block aw w} (h : b.ready) (hE : b.EMPTY = false) :
    b.popCmd = b.popLoad.popAdvance := by
  obtain ⟨hi, hf⟩ := h
  rw [Block.popCmd, Block.whenReady_ready hi hf, hE]
  rfl

/-- On a ready buffer that is not full PUSH is its two halves (R130). -/
theorem Block.pushCmd_of_ready {b : Block aw w} (h : b.ready) (hF : b.FULL = false) (e : Elem w) :
    b.pushCmd e = (b.pushStore e).pushAdvance := by
  obtain ⟨hi, hf⟩ := h
  rw [Block.pushCmd, Block.whenReady_ready hi hf, hF]
  rfl

/-- A written slot reads as its element. -/
theorem Block.slotValue_of_slot {b : Block aw w} {a : SlotAddr aw} {e : Elem w} (h : b.slot a = some e) :
    b.slotValue a = e := by
  rw [Block.slotValue, h, Option.getD_some]

/-- A buffer that is not empty holds the slot at HEAD. -/
theorem Block.HEAD_mem_heldSlots {b : Block aw w} (h : b.inRange) (hE : b.EMPTY = false) : b.HEAD ∈ b.heldSlots := by
  rw [Block.heldSlots_eq_cons_popAdvance h hE]
  exact List.mem_cons_self

/-- Settles O39: the slot at HEAD is held, so by the invariant it is written. -/
theorem popFindsWrittenSlot : Obligations.PopFindsWrittenSlot := by
  intro s hs hr hE
  obtain ⟨hrange, -, hwritten⟩ := hs.2 hr.1
  obtain ⟨e, he⟩ := Option.isSome_iff_exists.mp (hwritten _ (Block.HEAD_mem_heldSlots hrange hE))
  refine ⟨e, s.blk.popLoad.popAdvance, he, ?_, Block.slotValue_of_slot he⟩
  rw [exec_eq_after, Block.after, Block.popCmd_of_ready hr hE]

end Sys2Proof.Machine
end

section
/-! PROOFS. The held slots, listed (42_depth_queries.md R124, 20_memory.md R58): their offsets from HEAD are 0, 1, ..., OCC - 1, and
TAIL is at offset OCC. The induction takes TAIL one slot back at each turn. -/

namespace Sys2Proof.Machine

variable {aw w : Nat}

/-- The block with TAIL one slot back, as it was before the last element came. -/
def Block.retractTail (b : Block aw w) : Block aw w := b.setTail (b.pred b.TAIL)

@[simp] theorem Block.retractTail_BEGIN (b : Block aw w) : b.retractTail.BEGIN = b.BEGIN := rfl
@[simp] theorem Block.retractTail_END (b : Block aw w) : b.retractTail.END = b.END := rfl
@[simp] theorem Block.retractTail_HEAD (b : Block aw w) : b.retractTail.HEAD = b.HEAD := rfl
@[simp] theorem Block.retractTail_TAIL (b : Block aw w) : b.retractTail.TAIL = b.pred b.TAIL := rfl

/-- How many slots after HEAD a slot stands: the OCC of a buffer with its TAIL there. -/
def Block.offset (b : Block aw w) (a : SlotAddr aw) : Nat := (b.setTail a).OCC.toNat

/-- Advancing TAIL undoes taking it back. -/
theorem Block.pushAdvance_retractTail {b : Block aw w} (h : b.inRange) : b.retractTail.pushAdvance = b := by
  obtain ⟨-, -, -, hBT, hTE⟩ := h
  show b.setTail (b.succ (b.pred b.TAIL)) = b
  rw [Block.succ_pred hBT hTE]
  rfl

/-- Taking TAIL back stays in range. -/
theorem Block.retractTail_inRange {b : Block aw w} (h : b.inRange) : b.retractTail.inRange := by
  obtain ⟨hBE, hBH, hHE, hBT, hTE⟩ := h
  exact ⟨hBE, hBH, hHE, Block.pred_mem_region hBT hTE⟩

/-- With TAIL taken back off a held slot, that slot is free. -/
theorem Block.FULL_retractTail {b : Block aw w} (h : b.inRange) (hE : b.EMPTY = false) : b.retractTail.FULL = false := by
  have hpos := b.inRange_iff_toNat.mp h
  obtain ⟨-, -, -, hBT, -⟩ := h
  have hnot := mt b.EMPTY_iff_toNat.mpr (by simp [hE])
  have hpred := b.pred_toNat_cases hBT
  rw [← Bool.not_eq_true, Block.FULL_iff_toNat]
  simp only [Block.retractTail_HEAD, Block.retractTail_TAIL, Block.retractTail_BEGIN, Block.retractTail_END]
  omega

/-- Taking TAIL back leaves one slot less. -/
theorem Block.OCC_retractTail {b : Block aw w} (h : b.inRange) (hE : b.EMPTY = false) :
    b.retractTail.OCC + 1 = b.OCC := by
  rw [← Block.OCC_pushAdvance (Block.retractTail_inRange h) (Block.FULL_retractTail h hE),
    Block.pushAdvance_retractTail h]

/-- The last held slot is the one before TAIL. -/
theorem Block.heldSlots_eq_append_pred {b : Block aw w} (h : b.inRange) (hE : b.EMPTY = false) :
    b.heldSlots = b.retractTail.heldSlots ++ [b.pred b.TAIL] := by
  conv_lhs => rw [← Block.pushAdvance_retractTail h]
  exact Block.heldSlots_pushAdvance (Block.retractTail_inRange h) (Block.FULL_retractTail h hE)

/-- The held slots stand at the offsets below OCC, in that order. -/
theorem Block.map_offset_heldSlots {b : Block aw w} (h : b.inRange) :
    b.heldSlots.map b.offset = List.range b.OCC.toNat := by
  generalize hn : b.OCC.toNat = n
  have h0 := (Block.OCC_range h).1
  induction n generalizing b with
  | zero => rw [Block.heldSlots, hn]; rfl
  | succ n ih =>
    have hE : b.EMPTY = false := by
      rw [← Bool.not_eq_true, ← Block.OCC_eq_zero_iff h]
      omega
    have hocc := Block.OCC_retractTail h hE
    have hlast : b.offset (b.pred b.TAIL) = n := by
      show b.retractTail.OCC.toNat = n
      omega
    have hbefore : b.retractTail.heldSlots.map b.offset = List.range n :=
      ih (Block.retractTail_inRange h) (by omega) (by omega)
    rw [Block.heldSlots_eq_append_pred h hE, List.map_append, hbefore, List.map_singleton, hlast, List.range_succ]

/-- No slot is held twice. -/
theorem Block.heldSlots_nodup {b : Block aw w} (h : b.inRange) : b.heldSlots.Nodup :=
  List.Nodup.of_map b.offset (Block.map_offset_heldSlots h ▸ List.nodup_range)

/-- TAIL is not held: its offset is OCC (R58). -/
theorem Block.TAIL_notMem_heldSlots {b : Block aw w} (h : b.inRange) : b.TAIL ∉ b.heldSlots := by
  intro hmem
  have hoff : b.offset b.TAIL ∈ List.range b.OCC.toNat :=
    Block.map_offset_heldSlots h ▸ List.mem_map_of_mem hmem
  exact Nat.lt_irrefl _ (List.mem_range.mp hoff)

/-- A walk that starts in the region stays there. -/
theorem Block.slotsFrom_mem_region {b : Block aw w} {p a : SlotAddr aw} {n : Nat} (hB : b.BEGIN ≤ p) (hE : p ≤ b.END)
    (ha : a ∈ b.slotsFrom p n) : b.BEGIN ≤ a ∧ a ≤ b.END := by
  induction n generalizing p with
  | zero => exact absurd ha List.not_mem_nil
  | succ n ih =>
    obtain ⟨hBS, hSE⟩ := Block.succ_mem_region hB hE
    rcases List.mem_cons.mp ha with rfl | ha
    · exact ⟨hB, hE⟩
    · exact ih hBS hSE ha

/-- There are OCC held slots. -/
theorem Block.length_heldSlots {b : Block aw w} (h : b.inRange) : (b.heldSlots.length : Int) = b.OCC := by
  rw [Block.heldSlots, Block.slotsFrom_length, Int.toNat_of_nonneg (Block.OCC_range h).1]

/-- Settles O46: the offsets of the held slots give that they differ from each other and from TAIL. -/
theorem heldSlots : Obligations.HeldSlots := by
  intro aw w b h
  refine ⟨Block.length_heldSlots h, Block.heldSlots_nodup h, fun a ha => ?_, Block.TAIL_notMem_heldSlots h, fun hne => ?_⟩
  · obtain ⟨-, hBH, hHE, -, -⟩ := h
    exact Block.slotsFrom_mem_region hBH hHE ha
  · have hE : b.EMPTY = false := by rwa [← Bool.not_eq_true, b.EMPTY_iff]
    constructor
    · rw [Block.heldSlots_eq_cons_popAdvance h hE, List.head?_cons]
    · rw [Block.heldSlots_eq_append_pred h hE, List.getLast?_concat]

end Sys2Proof.Machine
end

section
/-! PROOFS. The halves of PUSH and of POP with the other command between them (20_memory.md R62, 46_sequence_laws.md R183). -/

namespace Sys2Proof.Machine

variable {aw w : Nat}

/-- After a POP there is room. -/
theorem Block.FULL_popAdvance {b : Block aw w} (h : b.inRange) (hE : b.EMPTY = false) : b.popAdvance.FULL = false := by
  have hocc := Block.OCC_popAdvance h hE
  have hmax := (Block.OCC_range h).2
  have hsize : b.popAdvance.SIZE = b.SIZE := rfl
  rw [← Bool.not_eq_true, ← Block.OCC_eq_max_iff (Block.popAdvance_inRange h)]
  omega

/-- After a PUSH there is an element. -/
theorem Block.EMPTY_pushAdvance {b : Block aw w} (h : b.inRange) (hF : b.FULL = false) :
    b.pushAdvance.EMPTY = false := by
  have hocc := Block.OCC_pushAdvance h hF
  have h0 := (Block.OCC_range h).1
  rw [← Bool.not_eq_true, ← Block.OCC_eq_zero_iff (Block.pushAdvance_inRange h)]
  omega

/-- A store at TAIL leaves what POP is about to read: while the buffer is not empty the slot at HEAD is another one. -/
theorem Block.slotValue_HEAD_pushStore {b : Block aw w} (hE : b.EMPTY = false) (e : Elem w) :
    (b.pushStore e).slotValue b.HEAD = b.slotValue b.HEAD := by
  have hne : b.HEAD ≠ b.TAIL := by rwa [← Bool.not_eq_true, b.EMPTY_iff] at hE
  have hslot : (b.pushStore e).slot b.HEAD = b.slot b.HEAD := Block.slot_storeSlot_other b e hne
  rw [Block.slotValue, Block.slotValue, hslot]
  rfl

/-- A POP, then a PUSH: the four halves one after another. -/
theorem Block.popCmd_pushCmd {b : Block aw w} (hr : b.ready) (h : b.inRange) (hE : b.EMPTY = false) (e : Elem w) :
    b.popCmd.pushCmd e = (b.popLoad.popAdvance.pushStore e).pushAdvance := by
  rw [Block.popCmd_of_ready hr hE]
  exact Block.pushCmd_of_ready (b := b.popLoad.popAdvance) hr (Block.FULL_popAdvance h hE) e

/-- A PUSH, then a POP: the four halves one after another. -/
theorem Block.pushCmd_popCmd {b : Block aw w} (hr : b.ready) (h : b.inRange) (hF : b.FULL = false) (e : Elem w) :
    (b.pushCmd e).popCmd = (b.pushStore e).pushAdvance.popLoad.popAdvance := by
  rw [Block.pushCmd_of_ready hr hF]
  exact Block.popCmd_of_ready (b := (b.pushStore e).pushAdvance) hr (Block.EMPTY_pushAdvance h hF)

/-- Settles O60: both orders are the same four halves, each cursor moved by its own; the load is of another slot than the store. -/
theorem halvesInterleave : Obligations.HalvesInterleave := by
  intro aw w b e hr h hF hE
  have hload := Block.slotValue_HEAD_pushStore hE e
  have hpop : (b.pushStore e).popCmd = (b.pushStore e).popLoad.popAdvance :=
    Block.popCmd_of_ready (b := b.pushStore e) hr hE
  have hpush : b.popLoad.pushCmd e = (b.popLoad.pushStore e).pushAdvance :=
    Block.pushCmd_of_ready (b := b.popLoad) hr hF e
  rw [hpop, hpush, Block.popCmd_pushCmd hr h hE, Block.pushCmd_popCmd hr h hF, Block.popCmd_of_ready hr hE]
  exact ⟨⟨⟨rfl, rfl, rfl, rfl, rfl, rfl⟩, ⟨fun _ => rfl, rfl, rfl⟩, hload⟩,
    ⟨⟨rfl, rfl, rfl, rfl, rfl, rfl⟩, ⟨fun _ => rfl, rfl, rfl⟩, hload.symm⟩⟩

end Sys2Proof.Machine
end

section
/-! PROOFS. The encoding of a command: the opcode map read both ways, the ports, the packed word (30_encoding.md R81 to R85). -/

namespace Sys2Proof

/-! ### The opcode map (R82) -/

/-- Every row of the opcode map is read back. -/
@[simp] theorem Opcode.ofBits_bits (op : Opcode) : Opcode.ofBits op.bits = op := by
  cases op <;> rfl

/-- The map has a row for each of the eight values of `cmd_op`. -/
@[simp] theorem Opcode.bits_ofBits : ∀ v : BitVec 3, (Opcode.ofBits v).bits = v := by decide

/-- The two readings of the map are inverse. -/
theorem Opcode.ofBits_eq_iff {v : BitVec 3} {op : Opcode} : Opcode.ofBits v = op ↔ v = op.bits :=
  ⟨fun h => h ▸ (Opcode.bits_ofBits v).symm, fun h => h ▸ Opcode.ofBits_bits op⟩

/-! ### Which commands fit (R83) -/

theorem wellFormed_init_iff {aw w base size : Nat} :
    WellFormed aw w (.init base size) = true ↔ base < 2 ^ aw ∧ size < 2 ^ aw := by
  simp [WellFormed]

theorem wellFormed_push_iff {aw w elem : Nat} : WellFormed aw w (.push elem) = true ↔ elem < 2 ^ w := by
  simp [WellFormed]

/-! ### The ports (R81) -/

variable {aw w : Nat}

@[simp] theorem encode_valid (aw w : Nat) (i : Instr) : (encode aw w i).valid = true := by
  cases i <;> rfl

@[simp] theorem encode_op (aw w : Nat) (i : Instr) : (encode aw w i).op = i.opcode.bits := by
  cases i <;> rfl

/-- The decoded command is the one the opcode map names. -/
@[simp] theorem opcode_decode (p : CommandPorts aw w) : (decode p).opcode = Opcode.ofBits p.op := by
  unfold decode
  cases Opcode.ofBits p.op <;> rfl

/-- The code of INIT has `cmd_base` and `cmd_size` read. -/
theorem decode_of_op_init {p : CommandPorts aw w} (h : p.op = 0b000#3) :
    decode p = .init p.base.toNat p.size.toNat := by
  have hop : Opcode.ofBits p.op = .INIT := Opcode.ofBits_eq_iff.mpr h
  rw [decode, hop]

/-- The code of PUSH has `cmd_elem` read. -/
theorem decode_of_op_push {p : CommandPorts aw w} (h : p.op = 0b101#3) : decode p = .push p.elem.toNat := by
  have hop : Opcode.ofBits p.op = .PUSH := Opcode.ofBits_eq_iff.mpr h
  rw [decode, hop]

/-- An operand that fits its port is on the port as it is; the commands of format N have none. -/
theorem decode_encode {i : Instr} (h : WellFormed aw w i = true) : decode (encode aw w i) = i := by
  cases i with
  | init base size =>
    obtain ⟨hbase, hsize⟩ := wellFormed_init_iff.mp h
    rw [decode_of_op_init (encode_op ..)]
    simp [encode, Nat.mod_eq_of_lt hbase, Nat.mod_eq_of_lt hsize]
  | push elem =>
    rw [decode_of_op_push (encode_op ..)]
    simp [encode, Nat.mod_eq_of_lt (wellFormed_push_iff.mp h)]
  | _ => rfl

/-- Settles O1: the encoder presents, and the operands fit. -/
theorem decodeEncodePorts : Obligations.DecodeEncodePorts :=
  fun aw w i h => ⟨encode_valid aw w i, decode_encode h⟩

/-! ### The packed word (the model's own, log 12) -/

/-- The lowest field of a packed number, read by a port of its width. -/
theorem ofNat_toNat_add_mul {n : Nat} (x : BitVec n) (rest : Nat) : BitVec.ofNat n (x.toNat + 2 ^ n * rest) = x := by
  apply BitVec.eq_of_toNat_eq
  rw [BitVec.toNat_ofNat, Nat.add_mul_mod_self_left, Nat.mod_eq_of_lt x.isLt]

/-- What stands above the lowest field of a packed number. -/
theorem toNat_add_mul_div {n : Nat} (x : BitVec n) (rest : Nat) : (x.toNat + 2 ^ n * rest) / 2 ^ n = rest := by
  rw [Nat.add_mul_div_left _ _ (Nat.two_pow_pos n), Nat.div_eq_of_lt x.isLt, Nat.zero_add]

/-- A field below a number of `m` bits makes a number of `n + m` bits. -/
theorem toNat_add_mul_lt {n m rest : Nat} (x : BitVec n) (h : rest < 2 ^ m) : x.toNat + 2 ^ n * rest < 2 ^ (n + m) :=
  calc x.toNat + 2 ^ n * rest
      < 2 ^ n + 2 ^ n * rest := Nat.add_lt_add_right x.isLt _
    _ = 2 ^ n * (rest + 1) := by ring
    _ ≤ 2 ^ n * 2 ^ m := Nat.mul_le_mul_left _ h
    _ = 2 ^ (n + m) := (pow_add 2 n m).symm

/-- The packed word, one field below the others at a time. -/
theorem CommandPorts.toWord_eq_nested (p : CommandPorts aw w) :
    p.toWord = p.op.toNat + 2 ^ 3 * (p.base.toNat + 2 ^ aw * (p.size.toNat + 2 ^ aw * p.elem.toNat)) := by
  rw [CommandPorts.toWord]
  ring

/-- A packed command has `commandBits` bits. -/
theorem CommandPorts.toWord_lt (p : CommandPorts aw w) : p.toWord < 2 ^ commandBits aw w := by
  rw [p.toWord_eq_nested, commandBits, Nat.add_assoc, Nat.add_assoc]
  exact toNat_add_mul_lt p.op (toNat_add_mul_lt p.base (toNat_add_mul_lt p.size p.elem.isLt))

/-- Driven from its packed word, a presented record of ports is the same record again. -/
theorem CommandPorts.ofWord_toWord {p : CommandPorts aw w} (hv : p.valid = true) :
    CommandPorts.ofWord aw w (commandBits aw w) p.toWord = p := by
  have hword : p.toWord % 2 ^ commandBits aw w = p.toWord := Nat.mod_eq_of_lt p.toWord_lt
  have hop : BitVec.ofNat 3 p.toWord = p.op := by
    rw [p.toWord_eq_nested, ofNat_toNat_add_mul]
  have hbase : BitVec.ofNat aw (p.toWord / 2 ^ 3) = p.base := by
    rw [p.toWord_eq_nested, toNat_add_mul_div, ofNat_toNat_add_mul]
  have hsize : BitVec.ofNat aw (p.toWord / 2 ^ (3 + aw)) = p.size := by
    rw [p.toWord_eq_nested, pow_add, ← Nat.div_div_eq_div_mul, toNat_add_mul_div, toNat_add_mul_div,
      ofNat_toNat_add_mul]
  have helem : BitVec.ofNat w (p.toWord / 2 ^ (3 + aw + aw)) = p.elem := by
    rw [p.toWord_eq_nested, pow_add, pow_add, ← Nat.div_div_eq_div_mul, ← Nat.div_div_eq_div_mul, toNat_add_mul_div,
      toNat_add_mul_div, toNat_add_mul_div, BitVec.ofNat_toNat, BitVec.setWidth_eq]
  simp only [CommandPorts.ofWord, hword, hop, hbase, hsize, helem, ← hv]

/-- A word long enough for `cmd_op` is decoded through its ports. -/
theorem decodeWord_of_le {nbits : Nat} (h : 3 ≤ nbits) (word : Nat) :
    decodeWord aw w nbits word = .ok (decode (CommandPorts.ofWord aw w nbits word)) := if_neg (by omega)

/-- Settles O2: the word gives the ports back, and the ports the command. -/
theorem decodeEncodeWord : Obligations.DecodeEncodeWord := by
  intro aw w i h
  have hbits : 3 ≤ commandBits aw w := by
    rw [commandBits]
    omega
  refine ⟨CommandPorts.toWord_lt _, ?_⟩
  rw [decodeWord_of_le hbits, encodeWord, CommandPorts.ofWord_toWord (encode_valid aw w i), decode_encode h]

/-! ### The ports that are read (R81, R85) -/

/-- Settles O3, by the opcode: INIT and PUSH read ports that agree, and the others read none. -/
theorem decodeIgnoresUnreadPorts : Obligations.DecodeIgnoresUnreadPorts := by
  intro aw w p q hop hinit hpush
  by_cases hI : p.op = 0b000#3
  · obtain ⟨hbase, hsize⟩ := hinit hI
    rw [decode_of_op_init hI, decode_of_op_init (hop ▸ hI), hbase, hsize]
  by_cases hP : p.op = 0b101#3
  · rw [decode_of_op_push hP, decode_of_op_push (hop ▸ hP), hpush hP]
  unfold decode
  rw [← hop]
  cases h : Opcode.ofBits p.op with
  | INIT => exact absurd (Opcode.ofBits_eq_iff.mp h) hI
  | PUSH => exact absurd (Opcode.ofBits_eq_iff.mp h) hP
  | _ => rfl

/-- Settles O4: the opcode by the map, the operands because a port holds what it was read as. -/
theorem encodeDecodePorts : Obligations.EncodeDecodePorts := by
  intro aw w p
  refine ⟨?_, fun hI => ?_, fun hP => ?_⟩
  · rw [encode_op, opcode_decode, Opcode.bits_ofBits]
  · rw [decode_of_op_init hI]
    simp [encode]
  · rw [decode_of_op_push hP]
    simp [encode]

/-- Settles O5: eight table words and three packed ones, evaluated. -/
theorem decodeWords : Obligations.DecodeWords :=
  ⟨rfl, rfl, rfl, rfl, rfl, rfl, rfl, rfl, rfl, rfl, rfl⟩

end Sys2Proof
end

section
/-! PROOFS. The step without a command (30_encoding.md R86). -/

namespace Sys2Proof.Machine

variable {aw w : Nat}

/-- Nothing is presented when no event waits, or when the sample has `cmd_valid` = 0. -/
theorem Block.nextInput_idle {b : Block aw w}
    (h : b.inputs = [] ∨ ∃ who p rest, b.inputs = .present who p :: rest ∧ p.valid = false) : b.nextInput = .idle := by
  rcases h with h | ⟨who, p, rest, h, hv⟩
  · rw [Block.nextInput, h]
  · simp [Block.nextInput, h, hv]

/-- Settles O9: the event is taken off the list, and the outputs are not driven. -/
theorem idleStepChangesNothing : Obligations.IdleStepChangesNothing := by
  intro s h
  exact ⟨_, step_of_idle (Block.nextInput_idle h), ⟨rfl, rfl, rfl, rfl, rfl, rfl⟩, fun _ => rfl, rfl, rfl, rfl, rfl⟩

end Sys2Proof.Machine
end

section
/-! PROOFS. The counts that LEN and ROOM answer (42_depth_queries.md R120 to R123), and the pseudo-command OCC (30_encoding.md R90). -/

namespace Sys2Proof.Machine

variable {aw w : Nat}

/-- Where it executes, LEN answers LENV (R123). -/
theorem exec_len_of_ready {s : State} (h : s.blk.ready) :
    exec .len s = .next (s.withBlk (s.blk.answerCount (countPort s.params.aw s.blk.LENV))) := by
  obtain ⟨hi, hf⟩ := h
  rw [exec_eq_after, Block.after, Block.lenCmd, Block.whenReady_ready hi hf]

/-- Where it executes, ROOM answers ROOMV (R121). -/
theorem exec_room_of_ready {s : State} (h : s.blk.ready) :
    exec .room s = .next (s.withBlk (s.blk.answerCount (countPort s.params.aw s.blk.ROOMV))) := by
  obtain ⟨hi, hf⟩ := h
  rw [exec_eq_after, Block.after, Block.roomCmd, Block.whenReady_ready hi hf]

/-- LENV is a difference of two slot addresses (R122). -/
theorem Block.LENV_lt (b : Block aw w) : b.LENV < 2 ^ aw := by
  have hpow : ((2 ^ aw : Nat) : Int) = (2 : Int) ^ aw := by push_cast; rfl
  have hEND := b.END.isLt
  rw [Block.LENV]
  omega

/-- The room is at most the whole region's, because OCC is a number of slots (R120). -/
theorem Block.ROOMV_range {b : Block aw w} (h : b.inRange) : 0 ≤ b.ROOMV ∧ b.ROOMV ≤ b.LENV := by
  have hocc := Block.OCC_range h
  rw [Block.OCC, Block.SIZE] at hocc
  omega

/-- The port carries LENV whole (R122). -/
theorem Block.countPort_LENV {b : Block aw w} (h : b.inRange) : ((countPort aw b.LENV).toNat : Int) = b.LENV := by
  obtain ⟨h0, hmax⟩ := Block.ROOMV_range h
  exact countPort_toNat (h0.trans hmax) b.LENV_lt

/-- The port carries ROOMV whole (R120). -/
theorem Block.countPort_ROOMV {b : Block aw w} (h : b.inRange) : ((countPort aw b.ROOMV).toNat : Int) = b.ROOMV := by
  obtain ⟨h0, hmax⟩ := Block.ROOMV_range h
  exact countPort_toNat h0 (hmax.trans_lt b.LENV_lt)

/-- The host's difference of the two counts is OCC (R90, R124): the larger one is LENV, so it does not go below 0. -/
theorem Block.occValue_countPorts {b : Block aw w} (h : b.inRange) :
    (Pseudo.occValue (countPort aw b.LENV).toNat (countPort aw b.ROOMV).toNat : Int) = b.OCC := by
  have hlen := Block.countPort_LENV h
  have hroom := Block.countPort_ROOMV h
  obtain ⟨-, hle⟩ := Block.ROOMV_range h
  rw [Pseudo.occValue, Block.OCC]
  omega

/-- Settles O47: LEN leaves the positions, so the count ROOM then answers is that of the same block. -/
theorem occupancyByPseudoCommand : Obligations.OccupancyByPseudoCommand := by
  intro s hr h
  exact ⟨_, _, rfl, exec_len_of_ready hr, exec_room_of_ready (s := s.withBlk (s.blk.answerCount _)) hr,
    Block.occValue_countPorts h⟩

end Sys2Proof.Machine
end

section
/-! PROOFS. INIT on a region it accepts (40_init.md R100, R101): the test over the operands as numbers, the count and the content of
the buffer it leaves. -/

namespace Sys2Proof.Machine

variable {aw w : Nat}

/-- What INIT rejects, over operands that fit their ports (R100, R202). -/
theorem initRejects_addrOperand_iff {base size : Nat} (hbase : base < 2 ^ aw) (hsize : size < 2 ^ aw) :
    initRejects (addrOperand aw base) (addrOperand aw size) ↔ size < 2 ∨ base + size - 1 > 2 ^ aw - 1 := by
  have hpow : ((2 ^ aw : Nat) : Int) = (2 : Int) ^ aw := by push_cast; rfl
  rw [initRejects, addrOperand_toNat hbase, addrOperand_toNat hsize]
  omega

/-- Where it is not rejected, INIT installs its region, initialised before or not (R101). -/
theorem exec_init_of_accepted {s : State} {base size : Nat} (hf : s.blk.FAULT = .noFault)
    (hr : ¬ initRejects (addrOperand s.params.aw base) (addrOperand s.params.aw size)) :
    exec (.init base size) s =
      .next (s.withBlk (s.blk.install (addrOperand s.params.aw base) (addrOperand s.params.aw size))) := by
  rw [exec_eq_after, Block.after, Block.initCmd, Block.unlessFaulted_noFault hf, if_neg hr]

/-- LENV of an accepted region is one less than its number of slots (R122). -/
theorem Block.install_LENV (b : Block aw w) {base size : BitVec aw} (h : ¬ initRejects base size) :
    (b.install base size).LENV = (size.toNat : Int) - 1 := by
  have hEND := install_END_toNat h
  rw [initRejects, not_or] at h
  simp only [Block.LENV, Block.install_BEGIN, Block.install_END]
  omega

/-- A buffer just installed is empty (R100). -/
theorem Block.install_EMPTY (b : Block aw w) (base size : BitVec aw) : (b.install base size).EMPTY = true :=
  (Block.EMPTY_iff _).mpr rfl

/-- A buffer just installed has all its room: an empty buffer in range is not full, and its OCC is 0. -/
theorem Block.install_counts (b : Block aw w) {base size : BitVec aw} (h : ¬ initRejects base size) :
    (b.install base size).FULL = false ∧ (b.install base size).OCC = 0 ∧
      (b.install base size).ROOMV = (size.toNat : Int) - 1 := by
  have hrange := b.install_inRange h
  have hocc := (Block.OCC_eq_zero_iff hrange).mpr (b.install_EMPTY base size)
  have hfull : (b.install base size).FULL = false := by
    have hslots := Block.two_le_SIZE hrange
    rw [← Bool.not_eq_true, ← Block.OCC_eq_max_iff hrange]
    omega
  have hroom : (b.install base size).ROOMV = (size.toNat : Int) - 1 := by
    have hlen := b.install_LENV h
    rw [Block.OCC] at hocc
    omega
  exact ⟨hfull, hocc, hroom⟩

/-- A buffer just installed holds nothing, whatever the slots of its region read as. -/
theorem Block.install_contents (b : Block aw w) (base size : BitVec aw) : (b.install base size).contents = [] := by
  rw [Block.contents, Block.heldSlots_of_empty (by rfl), List.map_nil]

/-- Settles O13: the operands arrive whole, so the region is accepted, and both cursors stand at BEGIN. -/
theorem initInstalls : Obligations.InitInstalls := by
  intro base size s hf hbase hsize htwo hfits
  have hr := (initRejects_addrOperand_iff hbase hsize).not.mpr (by omega)
  have hBEGIN := addrOperand_toNat hbase
  have hSIZE := addrOperand_toNat hsize
  have hEND := install_END_toNat hr
  have hLENV := s.blk.install_LENV hr
  obtain ⟨hFULL, hOCC, hROOMV⟩ := s.blk.install_counts hr
  rw [hBEGIN, hSIZE] at hEND
  rw [hSIZE] at hLENV hROOMV
  exact ⟨_, exec_init_of_accepted hf hr, rfl, hf, hBEGIN, hEND, hBEGIN, hBEGIN, s.blk.install_EMPTY _ _, hFULL,
    hROOMV, hLENV, hOCC, s.blk.install_contents _ _, ⟨fun _ => rfl, rfl, rfl⟩, rfl, rfl⟩

end Sys2Proof.Machine
end

section
/-! PROOFS. IS_EMPTY and IS_FULL where they execute, and the forms of the full condition (41_status_queries.md R110 to R112). -/

namespace Sys2Proof.Machine

variable {aw w : Nat}

/-- A flag answered leaves every register and slot as it was, without a storage access. -/
theorem Block.answerFlag_frame (b : Block aw w) (v : Bool) :
    b.sameRegisters (b.answerFlag v) ∧ b.sameStorage (b.answerFlag v) ∧ (b.answerFlag v).noAccess :=
  ⟨⟨rfl, rfl, rfl, rfl, rfl, rfl⟩, ⟨fun _ => rfl, rfl, rfl⟩, rfl, rfl⟩

/-- Settles O15: the answer is EMPTY, and answering a flag writes nothing. -/
theorem isEmptyAnswers : Obligations.IsEmptyAnswers := fun s hr =>
  ⟨_, exec_isEmpty_of_ready hr, s.blk.EMPTY_iff, s.blk.answerFlag_frame _⟩

/-- Settles O16: the answer is FULL, and answering a flag writes nothing. -/
theorem isFullAnswers : Obligations.IsFullAnswers := fun s hr =>
  ⟨_, exec_isFull_of_ready hr, s.blk.FULL_iff, s.blk.answerFlag_frame _⟩

/-- "TAIL is pred(HEAD)" (R112): the first clause of FULL is `pred` where it wraps, the second where it does not. -/
theorem Block.FULL_iff_TAIL_eq_pred {b : Block aw w} (h : b.inRange) : b.FULL = true ↔ b.TAIL = b.pred b.HEAD := by
  have hpos := b.inRange_iff_toNat.mp h
  obtain ⟨-, hHEAD, -⟩ := h
  have hpred := b.pred_toNat_cases hHEAD
  rw [Block.FULL_iff_toNat, ← BitVec.toNat_inj]
  omega

/-- On the region `pred` and `succ` state one relation between two slots (R26). -/
theorem Block.eq_pred_iff_succ_eq {b : Block aw w} {p q : SlotAddr aw} (hpB : b.BEGIN ≤ p) (hpE : p ≤ b.END)
    (hqB : b.BEGIN ≤ q) (hqE : q ≤ b.END) : p = b.pred q ↔ b.succ p = q :=
  ⟨fun h => by rw [h, Block.succ_pred hqB hqE], fun h => by rw [← h, Block.pred_succ hpB hpE]⟩

/-- Of the slots of the region only END can be `BEGIN - 1` modulo 2^AW: from any other, one slot on is above BEGIN. -/
theorem Block.eq_END_of_eq_BEGIN_sub_one {b : Block aw w} {p : SlotAddr aw} (hB : b.BEGIN ≤ p) (hE : p ≤ b.END)
    (hp : p = b.BEGIN - 1#aw) : p = b.END := by
  by_contra hne
  have hsucc : b.succ p = b.BEGIN := by rw [Block.succ_of_ne hne, hp, BitVec.sub_add_cancel]
  have hnat := Block.succ_toNat hE hne
  rw [hsucc] at hnat
  rw [BitVec.le_def] at hB
  omega

/-- `HEAD - 1` may be taken modulo 2^AW (R112): it differs from `pred` only at BEGIN, where the first clause decides. -/
theorem Block.TAIL_eq_pred_iff_modular {b : Block aw w} (h : b.inRange) :
    b.TAIL = b.pred b.HEAD ↔ (b.HEAD = b.BEGIN ∧ b.TAIL = b.END) ∨ b.TAIL = b.HEAD - 1#aw := by
  obtain ⟨-, -, -, hTB, hTE⟩ := h
  by_cases hHEAD : b.HEAD = b.BEGIN
  · have hwrap := Block.eq_END_of_eq_BEGIN_sub_one hTB hTE
    rw [hHEAD, Block.pred_BEGIN]
    exact ⟨fun ht => .inl ⟨rfl, ht⟩, fun ht => ht.elim And.right hwrap⟩
  · rw [Block.pred_of_ne hHEAD]
    exact (or_iff_right fun hfirst => hHEAD hfirst.1).symm

/-- Settles O41: each form is "TAIL is pred(HEAD)", the two-clause test being FULL itself. -/
theorem fullThreeForms : Obligations.FullThreeForms := by
  intro aw w b h twoClause
  have hpred : twoClause ↔ b.TAIL = b.pred b.HEAD := b.FULL_iff.symm.trans (Block.FULL_iff_TAIL_eq_pred h)
  have hmodular := hpred.trans (Block.TAIL_eq_pred_iff_modular h)
  obtain ⟨-, hHB, hHE, hTB, hTE⟩ := h
  exact ⟨b.FULL_iff, hpred, hpred.trans (Block.eq_pred_iff_succ_eq hTB hTE hHB hHE), hmodular⟩

end Sys2Proof.Machine
end

section
/-! PROOFS. What ROOM and LEN answer, and where the counts lie (42_depth_queries.md R120 to R125): OCC and ROOMV share LENV between
them, so what is known of the one gives the other, and the port's modulo-2^AW image of a count is its modular computation. -/

namespace Sys2Proof.Machine

variable {aw w : Nat}

/-- A count answered leaves every register and slot as it was, without a storage access. -/
theorem Block.answerCount_frame (b : Block aw w) (v : BitVec aw) :
    b.sameRegisters (b.answerCount v) ∧ b.sameStorage (b.answerCount v) ∧ (b.answerCount v).noAccess :=
  ⟨⟨rfl, rfl, rfl, rfl, rfl, rfl⟩, ⟨fun _ => rfl, rfl, rfl⟩, rfl, rfl⟩

/-- LENV is one less than the number of slots (R122, conflict C1). -/
theorem Block.LENV_eq_SIZE_sub_one (b : Block aw w) : b.LENV = b.SIZE - 1 := by
  rw [Block.SIZE, add_sub_cancel_right]

/-- The room is what the held slots leave of SIZE - 1 (R124). -/
theorem Block.ROOMV_eq_sub_OCC (b : Block aw w) : b.ROOMV = b.SIZE - 1 - b.OCC := by
  rw [← Block.LENV_eq_SIZE_sub_one, Block.OCC, sub_sub_cancel]

/-- Settles O17: the answer is ROOMV, which under R25 the port carries whole, and answering a count writes nothing. -/
theorem roomAnswers : Obligations.RoomAnswers := fun s hr =>
  ⟨_, exec_room_of_ready hr, Block.countPort_ROOMV, s.blk.answerCount_frame _⟩

/-- Settles O18: the answer is LENV, which under R25 the port carries whole, and answering a count writes nothing. -/
theorem lenAnswers : Obligations.LenAnswers := fun s hr =>
  ⟨_, exec_len_of_ready hr,
    fun h => ⟨Block.countPort_LENV h, (Block.countPort_LENV h).trans s.blk.LENV_eq_SIZE_sub_one⟩,
    s.blk.answerCount_frame _⟩

/-- With TAIL before HEAD the buffer is not empty, so at least one slot is held (R120). -/
theorem Block.OCC_pos_of_TAIL_lt_HEAD {b : Block aw w} (h : b.inRange) (hlt : b.TAIL < b.HEAD) : 0 < b.OCC := by
  obtain ⟨hOCC, -⟩ := Block.OCC_range h
  refine lt_of_le_of_ne hOCC fun hzero => ?_
  have hEMPTY := (Block.OCC_eq_zero_iff h).mp hzero.symm
  exact (BitVec.ne_of_lt hlt) ((Block.EMPTY_iff b).mp hEMPTY).symm

/-- Settles O43: ROOMV is SIZE - 1 less OCC, so its range and its ends are those of OCC, turned round. -/
theorem roomRange : Obligations.RoomRange := by
  intro aw w b h
  have hroom := b.ROOMV_eq_sub_OCC
  obtain ⟨hnonneg, hmax⟩ := Block.ROOMV_range h
  refine ⟨hnonneg, b.LENV_eq_SIZE_sub_one ▸ hmax, fun hlt => ?_, hmax.trans_lt b.LENV_lt, ?_, ?_⟩
  · have hheld := Block.OCC_pos_of_TAIL_lt_HEAD h hlt
    omega
  · rw [← Block.OCC_eq_max_iff h]
    omega
  · rw [← Block.OCC_eq_zero_iff h]
    omega

/-! ### The port's modulo-2^AW image of a count (R125) -/

/-- A slot address is its own image on the count port. -/
@[simp] theorem countPort_natCast_toNat (x : BitVec aw) : countPort aw (x.toNat : Int) = x := by
  rw [countPort, BitVec.ofInt_natCast, BitVec.ofNat_toNat, BitVec.setWidth_eq]

@[simp] theorem countPort_one : countPort aw 1 = 1#aw := BitVec.ofInt_natCast aw 1

@[simp] theorem countPort_add (m n : Int) : countPort aw (m + n) = countPort aw m + countPort aw n := BitVec.ofInt_add m n

@[simp] theorem countPort_sub (m n : Int) : countPort aw (m - n) = countPort aw m - countPort aw n := by
  rw [sub_eq_add_neg, countPort_add, BitVec.sub_eq_add_neg]
  exact congrArg (countPort aw m + ·) BitVec.ofInt_neg

/-- The image of LENV is the modular difference, for every block (R125). -/
theorem Block.countPort_LENV_eq_modular (b : Block aw w) : countPort aw b.LENV = b.END - b.BEGIN := by
  simp [Block.LENV]

/-- The image of ROOMV is computed branch by branch in modular arithmetic, for every block; the comparison that chooses the branch
is the unsigned one (R125). -/
theorem Block.countPort_ROOMV_eq_modular (b : Block aw w) :
    countPort aw b.ROOMV =
      if b.TAIL.ult b.HEAD then b.HEAD - b.TAIL - 1#aw else (b.HEAD - b.TAIL) + (b.END - b.BEGIN) := by
  rw [Block.ROOMV, apply_ite (countPort aw)]
  simp [BitVec.ult]

/-- Settles O44: the modular computation gives what the port carries, and under R25 the port carries the integer whole. -/
theorem modularArithmetic : Obligations.ModularArithmetic := by
  intro aw w b h
  rw [← b.countPort_ROOMV_eq_modular, ← b.countPort_LENV_eq_modular]
  exact ⟨(Block.countPort_ROOMV h).symm, (Block.countPort_LENV h).symm⟩

/-- The closed form of OCC (R124): TAIL - HEAD, plus SIZE where TAIL has wrapped and HEAD has not. -/
theorem Block.OCC_closedForm (b : Block aw w) :
    b.OCC = if b.TAIL.toNat < b.HEAD.toNat then ((b.TAIL.toNat : Int) - b.HEAD.toNat) + b.SIZE
            else (b.TAIL.toNat : Int) - b.HEAD.toNat := by
  rcases b.OCC_cases with ⟨hlt, hocc⟩ | ⟨hle, hocc⟩
  · rw [if_pos hlt, hocc, Block.SIZE, Block.LENV]
  · rw [if_neg (Nat.not_lt.mpr hle), hocc]

/-- Settles O45: the closed form, then the range of OCC and its two ends. -/
theorem occupancyClosedForm : Obligations.OccupancyClosedForm := by
  intro aw w b h
  obtain ⟨hnonneg, hmax⟩ := Block.OCC_range h
  exact ⟨rfl, b.OCC_closedForm, hnonneg, hmax, Block.OCC_eq_zero_iff h, Block.OCC_eq_max_iff h⟩

end Sys2Proof.Machine
end

section
/-! PROOFS. PUSH and POP where they execute (43_data_transfer.md R130, R131): the slot and the port each uses, and the flags and
counts after. Moving a cursor changes OCC by one and SIZE not at all, which gives the new ROOMV and both flags. -/

namespace Sys2Proof.Machine

variable {aw w : Nat}

/-- Where it executes, PUSH is its two halves (R130). -/
theorem exec_push_of_ready {s : State} (h : s.blk.ready) (hF : s.blk.FULL = false) (elem : Nat) :
    exec (.push elem) s = .next (s.withBlk (s.blk.pushStore (elemOperand s.params.w elem)).pushAdvance) := by
  rw [exec_eq_after, Block.after, Block.pushCmd_of_ready h hF]

/-- Where it executes, POP is its two halves (R131). -/
theorem exec_pop_of_ready {s : State} (h : s.blk.ready) (hE : s.blk.EMPTY = false) :
    exec .pop s = .next (s.withBlk s.blk.popLoad.popAdvance) := by
  rw [exec_eq_after, Block.after, Block.popCmd_of_ready h hE]

/-! ### The storage and the cursors (R54, R60) -/

/-- A PUSH that stores leaves its element in the slot at the old TAIL. -/
theorem Block.slot_pushed_TAIL (b : Block aw w) (e : Elem w) : (b.pushStore e).pushAdvance.slot b.TAIL = some e :=
  b.slot_storeSlot_same b.TAIL e

/-- A POP that answers an element reads it from the storage and answers it unchanged (R84). -/
theorem Block.popped_answer {b : Block aw w} {e : Elem w} (h : b.slot b.HEAD = some e) :
    b.popLoad.popAdvance.out.rspElem = e ∧ b.popLoad.popAdvance.out.memRdata = e :=
  ⟨Block.slotValue_of_slot h, Block.slotValue_of_slot h⟩

/-- `succ` by its two branches (R26): the wrap is by equality with END. -/
theorem Block.succ_branches (b : Block aw w) (p : SlotAddr aw) :
    (p = b.END → b.succ p = b.BEGIN) ∧ (p ≠ b.END → b.succ p = p + 1#aw) :=
  ⟨fun h => h ▸ b.succ_END, Block.succ_of_ne⟩

/-- Settles O19: the store reaches the slot at TAIL alone, the advance writes TAIL alone. -/
theorem pushStores : Obligations.PushStores := by
  intro elem s hr hF
  obtain ⟨hwe, hre, haddr⟩ := s.blk.pushed_out (elemOperand s.params.w elem)
  obtain ⟨hwrap, hnext⟩ := s.blk.succ_branches s.blk.TAIL
  obtain ⟨hINITED, hFAULT⟩ := hr
  exact ⟨_, exec_push_of_ready ⟨hINITED, hFAULT⟩ hF elem, s.blk.slot_pushed_TAIL _,
    fun _ => Block.slot_pushed_other s.blk _, hwrap, hnext, hINITED, hFAULT, rfl, rfl, rfl, hwe, hre, haddr, rfl, rfl, rfl⟩

/-- Settles O21: the load answers the slot at HEAD and writes none, the advance writes HEAD alone. -/
theorem popLoads : Obligations.PopLoads := by
  intro s hr hE
  obtain ⟨hwe, hre, haddr⟩ := s.blk.popped_out
  obtain ⟨hwrap, hnext⟩ := s.blk.succ_branches s.blk.HEAD
  obtain ⟨hINITED, hFAULT⟩ := hr
  exact ⟨_, exec_pop_of_ready ⟨hINITED, hFAULT⟩ hE, fun _ => Block.popped_answer, hwrap, hnext, hINITED, hFAULT,
    rfl, rfl, rfl, hwe, hre, haddr, fun _ => rfl, rfl, rfl⟩

/-! ### The flags and the counts (R130, R131) -/

@[simp] theorem Block.pushAdvance_SIZE (b : Block aw w) : b.pushAdvance.SIZE = b.SIZE := rfl
@[simp] theorem Block.popAdvance_SIZE (b : Block aw w) : b.popAdvance.SIZE = b.SIZE := rfl

/-- One slot held more is one slot free less. -/
theorem Block.ROOMV_pushAdvance {b : Block aw w} (h : b.inRange) (hF : b.FULL = false) :
    b.pushAdvance.ROOMV = b.ROOMV - 1 := by
  rw [Block.ROOMV_eq_sub_OCC, Block.ROOMV_eq_sub_OCC, Block.OCC_pushAdvance h hF, Block.pushAdvance_SIZE,
    sub_add_eq_sub_sub]

/-- One slot held less is one slot free more. -/
theorem Block.ROOMV_popAdvance {b : Block aw w} (h : b.inRange) (hE : b.EMPTY = false) :
    b.popAdvance.ROOMV = b.ROOMV + 1 := by
  rw [Block.ROOMV_eq_sub_OCC, Block.ROOMV_eq_sub_OCC, Block.OCC_popAdvance h hE, Block.popAdvance_SIZE, sub_add]

/-- A buffer is full exactly when it has no room (R124). -/
theorem Block.ROOMV_eq_zero_iff {b : Block aw w} (h : b.inRange) : b.ROOMV = 0 ↔ b.FULL = true := by
  rw [← Block.OCC_eq_max_iff h, Block.ROOMV_eq_sub_OCC, sub_eq_zero, eq_comm]

/-- A PUSH fills the buffer exactly when one slot was free. -/
theorem Block.FULL_pushAdvance_iff {b : Block aw w} (h : b.inRange) (hF : b.FULL = false) :
    b.pushAdvance.FULL = true ↔ b.ROOMV = 1 := by
  rw [← Block.ROOMV_eq_zero_iff (Block.pushAdvance_inRange h), Block.ROOMV_pushAdvance h hF, sub_eq_zero]

/-- A POP empties the buffer exactly when one element was held. -/
theorem Block.EMPTY_popAdvance_iff {b : Block aw w} (h : b.inRange) (hE : b.EMPTY = false) :
    b.popAdvance.EMPTY = true ↔ b.OCC = 1 := by
  rw [← Block.OCC_eq_zero_iff (Block.popAdvance_inRange h), Block.OCC_popAdvance h hE, sub_eq_zero]

/-- Settles O20: flags and counts read the positions alone, and those are as the advance of TAIL leaves them. -/
theorem pushFlagsAfter : Obligations.PushFlagsAfter := by
  intro elem s t hr h hF hexec
  rw [exec_push_of_ready hr hF] at hexec
  obtain rfl := Host.Outcome.next.inj hexec
  exact ⟨Block.EMPTY_pushAdvance h hF, Block.FULL_pushAdvance_iff h hF, Block.ROOMV_pushAdvance h hF,
    Block.OCC_pushAdvance h hF, Block.pushAdvance_inRange h⟩

/-- Settles O22: flags and counts read the positions alone, and those are as the advance of HEAD leaves them. -/
theorem popFlagsAfter : Obligations.PopFlagsAfter := by
  intro s t hr h hE hexec
  rw [exec_pop_of_ready hr hE] at hexec
  obtain rfl := Host.Outcome.next.inj hexec
  exact ⟨Block.FULL_popAdvance h hE, Block.EMPTY_popAdvance_iff h hE, Block.ROOMV_popAdvance h hE,
    Block.OCC_popAdvance h hE, Block.popAdvance_inRange h⟩

end Sys2Proof.Machine
end

section
/-! PROOFS. Elements and variants do not reach what the block does (45_width_variants.md R160, R163, R165): a block with the same
registers and step counter as `b` is `b` with other elements, and flags, counts and cursors of such a block are those of `b` by
definition. -/

namespace Sys2Proof.Machine

variable {aw w w' : Nat}

/-- The block `c` with the registers and the step counter of `b`: of `c` there remain the elements and what waits at its inputs. -/
def Block.withRegistersOf (c : Block aw w') (b : Block aw w) : Block aw w' :=
  { c with
    INITED := b.INITED
    FAULT := b.FAULT
    BEGIN := b.BEGIN
    END := b.END
    HEAD := b.HEAD
    TAIL := b.TAIL
    draws := b.draws }

/-- A block that has the registers and the step counter of `b` already is left as it is. -/
theorem Block.withRegistersOf_eq_self {b : Block aw w} {c : Block aw w'} (hregs : b.sameRegisters c)
    (hdraws : b.draws = c.draws) : c.withRegistersOf b = c := by
  obtain ⟨hI, hF, hB, hE, hH, hT⟩ := hregs
  rw [Block.withRegistersOf, ← hI, ← hF, ← hB, ← hE, ← hH, ← hT, hdraws]

@[simp] theorem Block.withRegistersOf_EMPTY (c : Block aw w') (b : Block aw w) :
    (c.withRegistersOf b).EMPTY = b.EMPTY := rfl
@[simp] theorem Block.withRegistersOf_FULL (c : Block aw w') (b : Block aw w) :
    (c.withRegistersOf b).FULL = b.FULL := rfl

/-- The registers agree, and so does all that the last step drove but for the elements on its ports. -/
abbrev Block.endsAlike (b : Block aw w) (c : Block aw w') : Prop :=
  b.sameRegisters c ∧ b.out.rspFlag = c.out.rspFlag ∧ b.out.rspCount = c.out.rspCount ∧
    b.out.memAddr = c.out.memAddr ∧ b.out.memWe = c.out.memWe ∧ b.out.memRe = c.out.memRe

section
variable (b : Block aw w) (c : Block aw w')

/-- The free values on undriven ports depend on the step counter alone (log 5). -/
theorem Block.endsAlike_quiet : b.quiet.endsAlike (c.withRegistersOf b).quiet :=
  ⟨⟨rfl, rfl, rfl, rfl, rfl, rfl⟩, rfl, rfl, rfl, rfl, rfl⟩

theorem Block.endsAlike_raise (f : FaultCode) : (b.raise f).endsAlike ((c.withRegistersOf b).raise f) :=
  ⟨⟨rfl, rfl, rfl, rfl, rfl, rfl⟩, rfl, rfl, rfl, rfl, rfl⟩

theorem Block.endsAlike_install (base size : BitVec aw) :
    (b.install base size).endsAlike ((c.withRegistersOf b).install base size) :=
  ⟨⟨rfl, rfl, rfl, rfl, rfl, rfl⟩, rfl, rfl, rfl, rfl, rfl⟩

theorem Block.endsAlike_answerFlag (v : Bool) : (b.answerFlag v).endsAlike ((c.withRegistersOf b).answerFlag v) :=
  ⟨⟨rfl, rfl, rfl, rfl, rfl, rfl⟩, rfl, rfl, rfl, rfl, rfl⟩

theorem Block.endsAlike_answerCount (v : BitVec aw) :
    (b.answerCount v).endsAlike ((c.withRegistersOf b).answerCount v) :=
  ⟨⟨rfl, rfl, rfl, rfl, rfl, rfl⟩, rfl, rfl, rfl, rfl, rfl⟩

/-- A PUSH that stores drives the address TAIL and moves TAIL, whichever element it stores. -/
theorem Block.endsAlike_pushed (e : Elem w) (e' : Elem w') :
    (b.pushStore e).pushAdvance.endsAlike ((c.withRegistersOf b).pushStore e').pushAdvance :=
  ⟨⟨rfl, rfl, rfl, rfl, rfl, rfl⟩, rfl, rfl, rfl, rfl, rfl⟩

/-- A POP that answers drives the address HEAD and moves HEAD, whatever the slot holds. -/
theorem Block.endsAlike_popped : b.popLoad.popAdvance.endsAlike (c.withRegistersOf b).popLoad.popAdvance :=
  ⟨⟨rfl, rfl, rfl, rfl, rfl, rfl⟩, rfl, rfl, rfl, rfl, rfl⟩

theorem Block.endsAlike_flushed :
    (b.quiet.setHead b.TAIL).endsAlike ((c.withRegistersOf b).quiet.setHead (c.withRegistersOf b).TAIL) :=
  ⟨⟨rfl, rfl, rfl, rfl, rfl, rfl⟩, rfl, rfl, rfl, rfl, rfl⟩

/-- The tests before a command read registers, so both blocks are stopped, both raise Uninitialised, or both run the command. -/
theorem Block.endsAlike_whenReady {k : Block aw w → Block aw w} {k' : Block aw w' → Block aw w'}
    (hk : (k b).endsAlike (k' (c.withRegistersOf b))) : (b.whenReady k).endsAlike ((c.withRegistersOf b).whenReady k') := by
  rcases b.whenReady_cases k with ⟨hf, h⟩ | ⟨hf, hi, h⟩ | ⟨hf, hi, h⟩ <;> rw [h]
  · rw [Block.whenReady_fault (b := c.withRegistersOf b) hf]
    exact b.endsAlike_quiet c
  · rw [Block.whenReady_uninit (b := c.withRegistersOf b) hf hi]
    exact b.endsAlike_raise c _
  · rwa [Block.whenReady_ready (b := c.withRegistersOf b) hi hf]

/-- INIT tests FAULT and its operands, neither of which is an element. -/
theorem Block.endsAlike_initCmd (base size : BitVec aw) :
    (b.initCmd base size).endsAlike ((c.withRegistersOf b).initCmd base size) := by
  unfold Block.initCmd
  by_cases hf : b.FAULT = .noFault
  · rw [Block.unlessFaulted_noFault hf, Block.unlessFaulted_noFault (b := c.withRegistersOf b) hf]
    split
    · exact b.endsAlike_raise c _
    · exact b.endsAlike_install c base size
  · rw [Block.unlessFaulted_fault hf, Block.unlessFaulted_fault (b := c.withRegistersOf b) hf]
    exact b.endsAlike_quiet c

/-- PUSH tests FULL, a function of the registers, and may be given another element on either side. -/
theorem Block.endsAlike_pushCmd (e : Elem w) (e' : Elem w') :
    (b.pushCmd e).endsAlike ((c.withRegistersOf b).pushCmd e') := by
  refine b.endsAlike_whenReady c ?_
  rw [Block.withRegistersOf_FULL]
  cases b.FULL
  · exact b.endsAlike_pushed c e e'
  · exact b.endsAlike_raise c _

/-- POP tests EMPTY, a function of the registers. -/
theorem Block.endsAlike_popCmd : b.popCmd.endsAlike (c.withRegistersOf b).popCmd := by
  refine b.endsAlike_whenReady c ?_
  rw [Block.withRegistersOf_EMPTY]
  cases b.EMPTY
  · exact b.endsAlike_popped c
  · exact b.endsAlike_raise c _

/-- The same command on both blocks. For PUSH even this is two elements, the operand cut to either width. -/
theorem Block.endsAlike_after (i : Instr) : (b.after i).endsAlike ((c.withRegistersOf b).after i) := by
  cases i with
  | init base size => exact b.endsAlike_initCmd c _ _
  | isEmpty => exact b.endsAlike_whenReady c (b.endsAlike_answerFlag c b.EMPTY)
  | isFull => exact b.endsAlike_whenReady c (b.endsAlike_answerFlag c b.FULL)
  | room => exact b.endsAlike_whenReady c (b.endsAlike_answerCount c (countPort aw b.ROOMV))
  | len => exact b.endsAlike_whenReady c (b.endsAlike_answerCount c (countPort aw b.LENV))
  | push elem => exact b.endsAlike_pushCmd c _ _
  | pop => exact b.endsAlike_popCmd c
  | flush => exact b.endsAlike_whenReady c (b.endsAlike_flushed c)

end

/-- Commands of one opcode, INIT with the same operands, differ in the element pushed or not at all (R81). -/
theorem eq_or_push_of_opcode_eq {i j : Instr} (hop : i.opcode = j.opcode) (hinit : i.opcode = .INIT → i = j) :
    i = j ∨ ∃ elem elem', i = .push elem ∧ j = .push elem' := by
  cases i with
  | init base size => exact .inl (hinit rfl)
  | push elem =>
    cases j with
    | push elem' => exact .inr ⟨elem, elem', rfl, rfl⟩
    | _ => cases hop
  | _ =>
    cases j <;> cases hop
    exact .inl rfl

/-- Settles O34: the second block is the first with other elements, and on such blocks the commands end alike. -/
theorem movesAlikeWhateverTheElements : Obligations.MovesAlikeWhateverTheElements := by
  intro p v order sign b c i j hop hinit hregs hdraws
  refine ⟨_, _, exec_eq_after i _, exec_eq_after j _, ?_⟩
  rw [← Block.withRegistersOf_eq_self hregs hdraws]
  rcases eq_or_push_of_opcode_eq hop hinit with rfl | ⟨elem, elem', rfl, rfl⟩
  · exact b.endsAlike_after c i
  · exact b.endsAlike_pushCmd c _ _

end Sys2Proof.Machine
end

section
/-! PROOFS. The buffer as a queue (46_sequence_laws.md R171, R174, R177): what PUSH, POP, FLUSH and INIT do to the content, and that
the block's answers about its positions are answers about the content. -/

namespace Sys2Proof.Machine

variable {aw w : Nat}

/-- There is room exactly when fewer than SIZE - 1 slots are held (R124). -/
theorem Block.FULL_eq_false_iff {b : Block aw w} (h : b.inRange) : b.FULL = false ↔ b.OCC < b.SIZE - 1 := by
  rw [← Bool.not_eq_true, ← Block.OCC_eq_max_iff h]
  exact ⟨lt_of_le_of_ne (Block.OCC_range h).2, ne_of_lt⟩

/-- There is an element exactly when a slot is held (R124). -/
theorem Block.EMPTY_eq_false_iff {b : Block aw w} (h : b.inRange) : b.EMPTY = false ↔ 0 < b.OCC := by
  rw [← Bool.not_eq_true, ← Block.OCC_eq_zero_iff h]
  exact ⟨fun hne => lt_of_le_of_ne (Block.OCC_range h).1 (Ne.symm hne), ne_of_gt⟩

/-! ### The content under the operations (R124, R130, R131, R150) -/

/-- The content has OCC elements. -/
theorem Block.length_contents {b : Block aw w} (h : b.inRange) : (b.contents.length : Int) = b.OCC := by
  rw [Block.contents, List.length_map, Block.length_heldSlots h]

/-- Nothing is held exactly when the buffer is empty. -/
theorem Block.contents_eq_nil_iff {b : Block aw w} (h : b.inRange) : b.contents = [] ↔ b.EMPTY = true := by
  rw [← List.length_eq_zero_iff, ← Block.OCC_eq_zero_iff h, ← Block.length_contents h, Int.natCast_eq_zero]

/-- With equal cursors nothing is held, in range or not. -/
theorem Block.contents_of_cursors_eq {b : Block aw w} (h : b.HEAD = b.TAIL) : b.contents = [] := by
  rw [Block.contents, Block.heldSlots_of_empty h, List.map_nil]

/-- With equal cursors OCC is 0, in range or not. -/
theorem Block.OCC_of_cursors_eq {b : Block aw w} (h : b.HEAD = b.TAIL) : b.OCC = 0 := by
  have hocc := b.OCC_cases
  rw [h] at hocc
  omega

@[simp] theorem Block.answerFlag_contents (b : Block aw w) (v : Bool) : (b.answerFlag v).contents = b.contents :=
  Block.contents_congr rfl rfl rfl rfl rfl rfl

@[simp] theorem Block.answerCount_contents (b : Block aw w) (v : BitVec aw) : (b.answerCount v).contents = b.contents :=
  Block.contents_congr rfl rfl rfl rfl rfl rfl

/-- A PUSH that stores leaves the value of every slot but the one at the old TAIL. -/
theorem Block.slotValue_pushed_other (b : Block aw w) (e : Elem w) {a : SlotAddr aw} (h : a ≠ b.TAIL) :
    (b.pushStore e).pushAdvance.slotValue a = b.slotValue a := by
  rw [Block.slotValue, Block.slotValue, Block.slot_pushed_other b e h]
  rfl

/-- PUSH appends: the new element is in the slot at the old TAIL, which was not held, so the held slots keep theirs. -/
theorem Block.contents_pushed {b : Block aw w} (h : b.inRange) (hF : b.FULL = false) (e : Elem w) :
    (b.pushStore e).pushAdvance.contents = b.contents ++ [e] := by
  have hheld : (b.pushStore e).pushAdvance.heldSlots = b.pushAdvance.heldSlots := Block.heldSlots_congr rfl rfl rfl rfl
  have hold : b.heldSlots.map (b.pushStore e).pushAdvance.slotValue = b.contents :=
    List.map_congr_left fun a ha =>
      b.slotValue_pushed_other e fun heq => Block.TAIL_notMem_heldSlots h (heq ▸ ha)
  rw [Block.contents, hheld, Block.heldSlots_pushAdvance h hF, List.map_append, hold, List.map_singleton,
    Block.slotValue_of_slot (b.slot_pushed_TAIL e)]

/-- POP takes the value of the slot at the old HEAD from the front. -/
theorem Block.contents_eq_cons_popped {b : Block aw w} (h : b.inRange) (hE : b.EMPTY = false) :
    b.contents = b.slotValue b.HEAD :: b.popLoad.popAdvance.contents := by
  have hheld : b.popLoad.popAdvance.heldSlots = b.popAdvance.heldSlots := Block.heldSlots_congr rfl rfl rfl rfl
  rw [Block.contents, Block.heldSlots_eq_cons_popAdvance h hE, List.map_cons, Block.contents, hheld]
  rfl

/-! ### The commands where they execute -/

/-- Where it executes, FLUSH moves HEAD to TAIL (R150). -/
theorem exec_flush_of_ready {s : State} (h : s.blk.ready) :
    exec .flush s = .next (s.withBlk (s.blk.quiet.setHead s.blk.TAIL)) := by
  obtain ⟨hi, hf⟩ := h
  rw [exec_eq_after, Block.after, Block.flushCmd, Block.whenReady_ready hi hf]

/-- A FLUSH puts HEAD where TAIL is, which is in range. -/
theorem Block.flushed_inRange {b : Block aw w} (h : b.inRange) : (b.quiet.setHead b.TAIL).inRange := by
  obtain ⟨hBE, -, -, hBT, hTE⟩ := h
  exact ⟨hBE, hBT, hTE, hBT, hTE⟩

/-- A buffer just flushed has all its room (R177). -/
theorem Block.flushed_ROOMV (b : Block aw w) : (b.quiet.setHead b.TAIL).ROOMV = b.SIZE - 1 := by
  rw [Block.ROOMV_eq_sub_OCC, Block.OCC_of_cursors_eq rfl, sub_zero]
  rfl

/-- A buffer just flushed has room: its region has at least two slots. -/
theorem Block.flushed_FULL {b : Block aw w} (h : b.inRange) : (b.quiet.setHead b.TAIL).FULL = false := by
  have hrange := Block.flushed_inRange h
  have hsize := Block.two_le_SIZE hrange
  rw [Block.FULL_eq_false_iff hrange, Block.OCC_of_cursors_eq rfl]
  omega

/-- Settles O49: the content grows at its end by a PUSH, shrinks at its front by a POP, is dropped by INIT and FLUSH and kept by
the queries, whose answers are read off its length. -/
theorem queueRefinement : Obligations.QueueRefinement := by
  intro s hr h
  have hlength := Block.length_contents h
  refine ⟨⟨hlength, Block.contents_of_cursors_eq⟩, fun base size hbase hsize htwo hfits => ?init, ?flush,
    fun elem hroom => ?push, fun e q hcontents => ?pop, ?isEmpty, ?isFull, ?room, ?len⟩
  case init =>
    obtain ⟨b, hexec, hI, hF, -, -, -, -, -, -, -, hLENV, -, hcontents, -⟩ :=
      initInstalls base size s hr.2 hbase hsize htwo hfits
    exact ⟨b, hexec, ⟨hI, hF⟩, hcontents, by rw [Block.SIZE, hLENV, sub_add_cancel]⟩
  case flush => exact ⟨_, exec_flush_of_ready hr, hr, Block.contents_of_cursors_eq rfl, rfl⟩
  case push =>
    have hF : s.blk.FULL = false := (Block.FULL_eq_false_iff h).mpr (hlength ▸ hroom)
    exact ⟨_, exec_push_of_ready hr hF elem, hr, Block.contents_pushed h hF _, rfl⟩
  case pop =>
    have hE : s.blk.EMPTY = false := by
      rw [← Bool.not_eq_true, ← Block.contents_eq_nil_iff h, hcontents]
      exact List.cons_ne_nil e q
    obtain ⟨hhead, htail⟩ := List.cons.inj (hcontents.symm.trans (Block.contents_eq_cons_popped h hE))
    exact ⟨_, exec_pop_of_ready hr hE, hr, hhead.symm, htail.symm, rfl⟩
  case isEmpty =>
    exact ⟨_, exec_isEmpty_of_ready hr, hr, (Block.contents_eq_nil_iff h).symm, s.blk.answerFlag_contents _⟩
  case isFull =>
    rw [hlength]
    exact ⟨_, exec_isFull_of_ready hr, hr, (Block.OCC_eq_max_iff h).symm, s.blk.answerFlag_contents _⟩
  case room =>
    rw [hlength, ← Block.ROOMV_eq_sub_OCC]
    exact ⟨_, exec_room_of_ready hr, hr, Block.countPort_ROOMV h, s.blk.answerCount_contents _⟩
  case len =>
    rw [← Block.LENV_eq_SIZE_sub_one]
    exact ⟨_, exec_len_of_ready hr, hr, Block.countPort_LENV h, s.blk.answerCount_contents _⟩

/-- Settles O23: the cursors are equal after it, so nothing is held, and under R25 all the room is free. -/
theorem flushEmpties : Obligations.FlushEmpties := by
  intro s hr
  have hempty : (s.blk.quiet.setHead s.blk.TAIL).EMPTY = true := (Block.EMPTY_iff _).mpr rfl
  exact ⟨_, exec_flush_of_ready hr, rfl, rfl, rfl, rfl, hr.1, hr.2, ⟨fun _ => rfl, rfl, rfl⟩, ⟨rfl, rfl⟩, hempty,
    Block.OCC_of_cursors_eq rfl, Block.contents_of_cursors_eq rfl,
    fun h => ⟨Block.flushed_FULL h, s.blk.flushed_ROOMV⟩⟩

/-! ### Right after INIT (R174) -/

/-- Settles O52: INIT accepts these operands, and the three queries answer the flags and the room of the buffer it installs. -/
theorem afterInitQueries : Obligations.AfterInitQueries := by
  intro base size s hf hbase htwo hmax
  have hsize : size < 2 ^ s.params.aw := by omega
  have hr := (initRejects_addrOperand_iff hbase hsize).not.mpr (by omega)
  have hrange := s.blk.install_inRange hr
  obtain ⟨hFULL, -, hROOMV⟩ := s.blk.install_counts hr
  rw [addrOperand_toNat hsize] at hROOMV
  have hready : (s.withBlk (s.blk.install (addrOperand _ base) (addrOperand _ size))).blk.ready := ⟨rfl, hf⟩
  exact ⟨_, _, _, _, exec_init_of_accepted hf hr, exec_isEmpty_of_ready hready, s.blk.install_EMPTY _ _,
    exec_isFull_of_ready hready, hFULL, exec_room_of_ready hready, (Block.countPort_ROOMV hrange).trans hROOMV⟩

end Sys2Proof.Machine
end

section
/-! PROOFS. Runs of commands (20_memory.md R61): a run as its first command and the rest, what every run keeps of an initialised
buffer, and FIFO order along a run without INIT and FLUSH that ends good (46_sequence_laws.md R172, R173). -/

namespace Sys2Proof.Machine

variable {aw w : Nat}

/-! ### A run, command by command -/

theorem Block.afterAll_append (is js : List Instr) (b : Block aw w) :
    b.afterAll (is ++ js) = (b.afterAll is).afterAll js := List.foldl_append

/-- The state a run leaves is the state before it with another block. -/
theorem eq_of_runCommands {is : List Instr} {s t : State} (h : runCommands is s = .next t) :
    t = s.withBlk (s.blk.afterAll is) :=
  Host.Outcome.next.inj (h.symm.trans (runCommands_eq is s))

/-- The content of the machine with another block. -/
@[simp] theorem State.withBlk_contents (s : State) (b : Block s.params.aw s.params.w) :
    (s.withBlk b).contents = b.contents.map BitVec.toNat := rfl

/-- The first command pushes before the others do. -/
theorem pushedBy_cons (w : Nat) (i : Instr) (is : List Instr) : pushedBy w (i :: is) = pushedBy w [i] ++ pushedBy w is := by
  cases i <;> rfl

/-- The first command answers before the others do. -/
theorem poppedBy_cons (i : Instr) (is : List Instr) (s : State) :
    poppedBy (i :: is) s = poppedBy [i] s ++ poppedBy is (s.withBlk (s.blk.after i)) := by
  simp only [poppedBy, exec_eq_after, List.append_nil]

/-- Only a PUSH stores an element. -/
theorem pushedBy_eq_nil {i : Instr} (w : Nat) (h : i.opcode ≠ .PUSH) : pushedBy w [i] = [] := by
  cases i with
  | push e => exact absurd rfl h
  | _ => rfl

/-- What one POP returns is what it leaves on `rsp_elem`. -/
theorem poppedBy_pop (s : State) : poppedBy [.pop] s = [(s.blk.after .pop).out.rspElem.toNat] := rfl

/-- Only a POP returns an element. -/
theorem poppedBy_eq_nil {i : Instr} (s : State) (h : i ≠ .pop) : poppedBy [i] s = [] := by
  simp only [poppedBy, exec_eq_after, if_neg h, List.append_nil]

theorem countOf_cons (op : Opcode) (i : Instr) (is : List Instr) :
    countOf op (i :: is) = countOf op [i] + countOf op is := by
  simp only [countOf, List.countP_cons, List.countP_nil]
  omega

theorem countOf_eq_one {op : Opcode} {i : Instr} (h : i.opcode = op) : countOf op [i] = 1 := by
  simp [countOf, h]

theorem countOf_eq_zero {op : Opcode} {i : Instr} (h : i.opcode ≠ op) : countOf op [i] = 0 := by
  simp [countOf, h]

/-- Every PUSH stores one element. -/
theorem length_pushedBy (w : Nat) (is : List Instr) : (pushedBy w is).length = countOf .PUSH is := by
  induction is with
  | nil => rfl
  | cons i is ih =>
    rw [pushedBy_cons, List.length_append, ih, countOf_cons]
    cases i <;> rfl

/-- Every POP returns one element. -/
theorem length_poppedBy (is : List Instr) (s : State) : (poppedBy is s).length = countOf .POP is := by
  induction is generalizing s with
  | nil => rfl
  | cons i is ih =>
    rw [poppedBy_cons, List.length_append, ih, countOf_cons]
    cases i <;> rfl

/-! ### What every run keeps of an initialised buffer (R25, R170) -/

/-- Initialised, with both cursors in a region of two slots or more, whatever FAULT holds. -/
abbrev Block.established (b : Block aw w) : Prop := b.INITED = true ∧ b.inRange

/-- No command takes back what INIT established. -/
theorem Block.Moves.established {i : Instr} {b c : Block aw w} (h : Block.Moves i b c) (hb : b.established) :
    c.established := by
  obtain ⟨hi, hrange⟩ := hb
  have hi' : c.INITED = true := by
    cases h with
    | kept i hregs hmem => exact hregs.1.trans hi
    | installed hr => rfl
    | _ => exact hi
  exact ⟨hi', h.inRange (fun _ => hrange) hi'⟩

theorem Block.established_after (i : Instr) {b : Block aw w} (hb : b.established) : (b.after i).established :=
  (b.after_effect i).moves.established hb

theorem Block.established_afterAll (is : List Instr) {b : Block aw w} (hb : b.established) : (b.afterAll is).established :=
  List.foldlRecOn is _ hb fun _ hc i _ => Block.established_after i hc

/-- Only INIT changes the region. -/
theorem Block.Moves.SIZE_eq {i : Instr} {b c : Block aw w} (h : Block.Moves i b c) (hi : i.opcode ≠ .INIT) :
    c.SIZE = b.SIZE := by
  cases h with
  | kept i hregs hmem =>
    obtain ⟨-, hB, hE, -, -⟩ := hregs
    rw [Block.SIZE, Block.SIZE, Block.LENV, Block.LENV, hB, hE]
  | installed hr => exact absurd rfl hi
  | _ => rfl

theorem Block.SIZE_afterAll {is : List Instr} (b : Block aw w) (h : ∀ i ∈ is, i.opcode ≠ .INIT) :
    (b.afterAll is).SIZE = b.SIZE :=
  List.foldlRecOn (motive := fun c : Block aw w => c.SIZE = b.SIZE) is _ rfl
    fun c hc i hi => ((c.after_effect i).moves.SIZE_eq (h i hi)).trans hc

/-! ### FIFO order (R172) -/

/-- What a command other than INIT and FLUSH does where it completes without a fault: it answers a query, stores or returns. -/
theorem Block.Effect.cases_of_good {i : Instr} {b c : Block aw w} (h : Block.Effect i b c) (hgood : c.FAULT = .noFault)
    (hi : i.opcode ≠ .INIT ∧ i.opcode ≠ .FLUSH) :
    (i.opcode ≠ .PUSH ∧ i ≠ .pop ∧ c.contents = b.contents) ∨
    (∃ e, i = .push e ∧ b.FULL = false ∧ c = (b.pushStore (elemOperand w e)).pushAdvance) ∨
    (i = .pop ∧ b.EMPTY = false ∧ c = b.popLoad.popAdvance) := by
  obtain ⟨hnotInit, hnotFlush⟩ := hi
  cases h with
  | stopped i hf => exact absurd hgood hf
  | uninitialised | rejected | pushOnFull | popOnEmpty => nomatch hgood
  | installed => exact absurd rfl hnotInit
  | flushed => exact absurd rfl hnotFlush
  | isEmpty | isFull => exact .inl ⟨nofun, nofun, Block.answerFlag_contents _ _⟩
  | room | len => exact .inl ⟨nofun, nofun, Block.answerCount_contents _ _⟩
  | pushed _ _ hF => exact .inr (.inl ⟨_, rfl, hF, rfl⟩)
  | popped _ _ hE => exact .inr (.inr ⟨rfl, hE, rfl⟩)

/-- One command keeps the order: an element pushed goes behind those held, an element popped was before all others. -/
theorem fifo_step {i : Instr} {s : State} (h : s.blk.inRange) (hi : i.opcode ≠ .INIT ∧ i.opcode ≠ .FLUSH)
    (hgood : (s.blk.after i).FAULT = .noFault) :
    s.contents ++ pushedBy s.params.w [i] = poppedBy [i] s ++ (s.withBlk (s.blk.after i)).contents := by
  rcases (s.blk.after_effect i).cases_of_good hgood hi with ⟨hpush, hpop, hc⟩ | ⟨e, rfl, hF, hc⟩ | ⟨rfl, hE, hc⟩
  · rw [pushedBy_eq_nil _ hpush, poppedBy_eq_nil s hpop, List.append_nil, List.nil_append, State.withBlk_contents, hc]
    rfl
  · rw [poppedBy_eq_nil (i := .push e) s nofun, List.nil_append, State.withBlk_contents, hc,
      Block.contents_pushed h hF, List.map_append]
    rfl
  · rw [poppedBy_pop, pushedBy_eq_nil (i := .pop) _ nofun, List.append_nil, State.contents, Block.contents_eq_cons_popped h hE,
      State.withBlk_contents, hc]
    rfl

/-- A run that ends good keeps the order, by induction on its commands: each of them ended good. -/
theorem fifo_run (is : List Instr) {s : State} (hs : s.blk.established)
    (his : ∀ i ∈ is, i.opcode ≠ .INIT ∧ i.opcode ≠ .FLUSH) (hgood : (s.blk.afterAll is).FAULT = .noFault) :
    s.contents ++ pushedBy s.params.w is = poppedBy is s ++ (s.withBlk (s.blk.afterAll is)).contents := by
  induction is generalizing s with
  | nil => exact List.append_nil _
  | cons i is ih =>
    obtain ⟨hi, hrest⟩ := List.forall_mem_cons.mp his
    have hfirst := fifo_step hs.2 hi (Block.noFault_of_afterAll hgood)
    have hlater := ih (s := s.withBlk (s.blk.after i)) (Block.established_after i hs) hrest hgood
    rw [pushedBy_cons, poppedBy_cons, ← List.append_assoc, hfirst, List.append_assoc, List.append_assoc]
    exact congrArg _ hlater

/-- Settles O50: the order along the run; from an empty buffer what was pushed is what was popped and is then held. -/
theorem fifoOrder : Obligations.FifoOrder := by
  intro cmds s t hr h hcmds hrun hgood
  obtain rfl := eq_of_runCommands hrun
  have hfifo := fifo_run cmds ⟨hr.1, h⟩ hcmds hgood
  refine ⟨hfifo, fun hE => ?_⟩
  have hnone : s.contents = [] := by rw [State.contents, (Block.contents_eq_nil_iff h).mpr hE, List.map_nil]
  rw [hnone, List.nil_append] at hfifo
  rw [hfifo, List.take_left]

/-- Settles O51: count both sides of the FIFO law, whose held elements number OCC. -/
theorem roomAccounting : Obligations.RoomAccounting := by
  intro cmds s t hr h hE hcmds hrun hgood
  obtain rfl := eq_of_runCommands hrun
  have hrange : (s.blk.afterAll cmds).inRange := (Block.established_afterAll cmds ⟨hr.1, h⟩).2
  have hsize := s.blk.SIZE_afterAll fun i hi => (hcmds i hi).1
  have hocc := (Block.OCC_eq_zero_iff h).mpr hE
  have hfifo := fifo_run cmds ⟨hr.1, h⟩ hcmds hgood
  rw [State.withBlk_contents, State.contents] at hfifo
  have hcount := congrArg List.length hfifo
  simp only [List.length_append, List.length_map, length_pushedBy, length_poppedBy] at hcount
  have hbefore := Block.length_contents h
  have hafter := Block.length_contents hrange
  have hheld : (s.blk.afterAll cmds).OCC = (countOf .PUSH cmds : Int) - countOf .POP cmds := by omega
  exact ⟨hsize, by omega, hheld ▸ (s.blk.afterAll cmds).ROOMV_eq_sub_OCC, hheld⟩

end Sys2Proof.Machine
end

section
/-! PROOFS. Producer and consumer stability (46_sequence_laws.md R180, R181): the consumer's commands do not lower ROOMV, the
producer's do not lower OCC, and a PUSH takes one slot of room at most. -/

namespace Sys2Proof.Machine

variable {aw w : Nat}

/-! ### What a context issues (60_exceptions.md R210) -/

theorem Agent.opcode_of_consumer {op : Opcode} (h : Agent.consumer.mayIssue op = true) : op ≠ .INIT ∧ op ≠ .PUSH := by
  cases op with
  | INIT | PUSH => nomatch h
  | _ => exact ⟨nofun, nofun⟩

theorem Agent.opcode_of_producer {op : Opcode} (h : Agent.producer.mayIssue op = true) :
    op ≠ .INIT ∧ op ≠ .POP ∧ op ≠ .FLUSH := by
  cases op with
  | INIT | POP | FLUSH => nomatch h
  | _ => exact ⟨nofun, nofun, nofun⟩

/-! ### The room and the content under one command -/

/-- OCC is about the four positions alone. -/
theorem Block.OCC_congr {b c : Block aw w} (hregs : b.sameButFault c) : c.OCC = b.OCC := by
  obtain ⟨-, hB, hE, hH, hT⟩ := hregs
  simp only [Block.OCC, Block.LENV, Block.ROOMV, hB, hE, hH, hT]

/-- ROOMV is about the four positions alone. -/
theorem Block.ROOMV_congr {b c : Block aw w} (hregs : b.sameButFault c) : c.ROOMV = b.ROOMV := by
  obtain ⟨-, hB, hE, hH, hT⟩ := hregs
  simp only [Block.ROOMV, hB, hE, hH, hT]

/-- A command other than INIT lowers ROOMV by one if it is a PUSH, and else not at all. -/
theorem Block.Moves.ROOMV_le {i : Instr} {b c : Block aw w} (h : Block.Moves i b c) (hb : b.inRange)
    (hi : i.opcode ≠ .INIT) : b.ROOMV ≤ c.ROOMV + countOf .PUSH [i] := by
  cases h with
  | kept i hregs hmem =>
    rw [Block.ROOMV_congr hregs]
    omega
  | installed hr => exact absurd rfl hi
  | @pushed elem b _ hF =>
    have hroom : (b.pushStore (elemOperand w elem)).pushAdvance.ROOMV = b.ROOMV - 1 := Block.ROOMV_pushAdvance hb hF
    rw [hroom, countOf_eq_one (op := .PUSH) (i := .push elem) rfl]
    omega
  | popped _ hE =>
    have hroom : b.popLoad.popAdvance.ROOMV = b.ROOMV + 1 := Block.ROOMV_popAdvance hb hE
    rw [hroom]
    omega
  | flushed _ =>
    have hmax := (Block.ROOMV_range hb).2
    rw [Block.flushed_ROOMV, ← Block.LENV_eq_SIZE_sub_one]
    omega

/-- A command of the producer's does not lower OCC. -/
theorem Block.Moves.OCC_le {i : Instr} {b c : Block aw w} (h : Block.Moves i b c) (hb : b.inRange)
    (hi : Agent.producer.mayIssue i.opcode = true) : b.OCC ≤ c.OCC := by
  obtain ⟨hnotInit, hnotPop, hnotFlush⟩ := Agent.opcode_of_producer hi
  cases h with
  | kept i hregs hmem => rw [Block.OCC_congr hregs]
  | installed => exact absurd rfl hnotInit
  | popped => exact absurd rfl hnotPop
  | flushed => exact absurd rfl hnotFlush
  | @pushed elem b _ hF =>
    have hocc : (b.pushStore (elemOperand w elem)).pushAdvance.OCC = b.OCC + 1 := Block.OCC_pushAdvance hb hF
    rw [hocc]
    omega

/-- Only a PUSH on a full buffer raises PushOnFull (R203). -/
theorem Block.Effect.pushOnFull_inv {i : Instr} {b c : Block aw w} (h : Block.Effect i b c) (hc : c.FAULT = .pushOnFull)
    (hb : b.FAULT ≠ .pushOnFull) : i.opcode = .PUSH ∧ b.FULL = true := by
  cases h with
  | pushOnFull _ _ hF => exact ⟨rfl, hF⟩
  | uninitialised | rejected | popOnEmpty => nomatch hc
  | _ => exact absurd hc hb

/-! ### The two laws -/

/-- The consumer's commands do not lower ROOMV, however many there are. -/
theorem Block.ROOMV_le_afterAll {is : List Instr} {b : Block aw w} (hb : b.established) (his : issuedOnlyBy .consumer is) :
    b.ROOMV ≤ (b.afterAll is).ROOMV := by
  have hinv : (b.afterAll is).established ∧ b.ROOMV ≤ (b.afterAll is).ROOMV :=
    List.foldlRecOn (motive := fun c : Block aw w => c.established ∧ b.ROOMV ≤ c.ROOMV) is _ ⟨hb, le_rfl⟩
      fun c ⟨hc, hle⟩ i hi => by
        obtain ⟨hnotInit, hnotPush⟩ := Agent.opcode_of_consumer (his i hi)
        have hstep := (c.after_effect i).moves.ROOMV_le hc.2 hnotInit
        rw [countOf_eq_zero hnotPush] at hstep
        exact ⟨Block.established_after i hc, by omega⟩
  exact hinv.2

/-- The producer's commands do not lower OCC, however many there are. -/
theorem Block.OCC_le_afterAll {is : List Instr} {b : Block aw w} (hb : b.established) (his : issuedOnlyBy .producer is) :
    b.OCC ≤ (b.afterAll is).OCC := by
  have hinv : (b.afterAll is).established ∧ b.OCC ≤ (b.afterAll is).OCC :=
    List.foldlRecOn (motive := fun c : Block aw w => c.established ∧ b.OCC ≤ c.OCC) is _ ⟨hb, le_rfl⟩
      fun c ⟨hc, hle⟩ i hi =>
        ⟨Block.established_after i hc, hle.trans ((c.after_effect i).moves.OCC_le hc.2 (his i hi))⟩
  exact hinv.2

/-- As many PUSH commands as there is room raise no PushOnFull: by induction on the run, the room stays at least the number of
PUSH commands still to come. -/
theorem Block.afterAll_FAULT_ne_pushOnFull {is : List Instr} {b : Block aw w} (hb : b.established)
    (his : issuedByContexts is) (hroom : (countOf .PUSH is : Int) ≤ b.ROOMV) (hf : b.FAULT ≠ .pushOnFull) :
    (b.afterAll is).FAULT ≠ .pushOnFull := by
  induction is generalizing b with
  | nil => exact hf
  | cons i is ih =>
    obtain ⟨hi, hrest⟩ := List.forall_mem_cons.mp his
    have hnotInit : i.opcode ≠ .INIT :=
      hi.elim (fun h => (Agent.opcode_of_producer h).1) fun h => (Agent.opcode_of_consumer h).1
    have heff := b.after_effect i
    have hstep := heff.moves.ROOMV_le hb.2 hnotInit
    rw [countOf_cons, Nat.cast_add] at hroom
    refine ih (b := b.after i) (Block.established_after i hb) hrest (by omega) fun hc => ?_
    obtain ⟨hpush, hF⟩ := heff.pushOnFull_inv hc hf
    have hnone := (Block.ROOMV_eq_zero_iff hb.2).mpr hF
    rw [countOf_eq_one hpush] at hroom
    omega

/-- Settles O57: the consumer frees slots and takes none, so the room seen is there for as many PUSH commands. -/
theorem producerStability : Obligations.ProducerStability := by
  intro cmds s t hr h hrun
  obtain rfl := eq_of_runCommands hrun
  have hnot : s.blk.FAULT ≠ .pushOnFull := by rw [hr.2]; nofun
  exact ⟨Block.ROOMV_le_afterAll ⟨hr.1, h⟩,
    fun hcmds hroom => Block.afterAll_FAULT_ne_pushOnFull ⟨hr.1, h⟩ hcmds hroom hnot⟩

/-- Settles O58: what was held is held still, so the POP finds an element. -/
theorem consumerStability : Obligations.ConsumerStability := by
  intro cmds s t hr h hcmds hrun
  obtain rfl := eq_of_runCommands hrun
  have hle := Block.OCC_le_afterAll ⟨hr.1, h⟩ hcmds
  obtain ⟨hi, hrange⟩ := Block.established_afterAll cmds ⟨hr.1, h⟩
  refine ⟨hle, fun hE hgood => ?_⟩
  have hE' := (Block.EMPTY_eq_false_iff hrange).mpr (((Block.EMPTY_eq_false_iff h).mp hE).trans_le hle)
  exact ⟨_, exec_pop_of_ready ⟨hi, hgood⟩ hE', hgood⟩

end Sys2Proof.Machine
end

section
/-! PROOFS. Runs of PUSH and of POP up to the boundaries (46_sequence_laws.md R175, R176): each command moves its cursor one slot on,
and what it finds at the boundary is the fault (60_exceptions.md R203, R204). -/

namespace Sys2Proof.Machine

variable {aw w : Nat}

/-! ### The boundaries -/

/-- There is room exactly when ROOMV is at least 1. -/
theorem Block.FULL_eq_false_iff_ROOMV {b : Block aw w} (h : b.inRange) : b.FULL = false ↔ 0 < b.ROOMV := by
  rw [Block.FULL_eq_false_iff h, Block.ROOMV_eq_sub_OCC, sub_pos]

/-- On a ready buffer that is full PUSH raises PushOnFull. -/
theorem Block.pushCmd_of_full {b : Block aw w} (h : b.ready) (hF : b.FULL = true) (e : Elem w) :
    b.pushCmd e = b.raise .pushOnFull := by
  obtain ⟨hi, hf⟩ := h
  rw [Block.pushCmd, Block.whenReady_ready hi hf, hF]
  rfl

/-- On a ready buffer that is empty POP raises PopOnEmpty. -/
theorem Block.popCmd_of_empty {b : Block aw w} (h : b.ready) (hE : b.EMPTY = true) :
    b.popCmd = b.raise .popOnEmpty := by
  obtain ⟨hi, hf⟩ := h
  rw [Block.popCmd, Block.whenReady_ready hi hf, hE]
  rfl

/-- A PUSH on a full buffer, as a command. -/
theorem exec_push_of_full {s : State} (h : s.blk.ready) (hF : s.blk.FULL = true) (elem : Nat) :
    exec (.push elem) s = .next (s.withBlk (s.blk.raise .pushOnFull)) := by
  rw [exec_eq_after, Block.after, Block.pushCmd_of_full h hF]

/-- A POP on an empty buffer, as a command. -/
theorem exec_pop_of_empty {s : State} (h : s.blk.ready) (hE : s.blk.EMPTY = true) :
    exec .pop s = .next (s.withBlk (s.blk.raise .popOnEmpty)) := by
  rw [exec_eq_after, Block.after, Block.popCmd_of_empty h hE]

/-! ### Filling and draining -/

/-- The block `c` is ready and has the region of `b`, with HEAD at `p` and TAIL at `q`. -/
structure Block.ReadyAt (b c : Block aw w) (p q : SlotAddr aw) : Prop where
  ready : c.ready
  inRange : c.inRange
  BEGIN_eq : c.BEGIN = b.BEGIN
  END_eq : c.END = b.END
  HEAD_eq : c.HEAD = p
  TAIL_eq : c.TAIL = q

/-- The region has as many slots. -/
theorem Block.ReadyAt.SIZE_eq {b c : Block aw w} {p q : SlotAddr aw} (h : b.ReadyAt c p q) : c.SIZE = b.SIZE := by
  rw [Block.SIZE, Block.SIZE, Block.LENV, Block.LENV, h.BEGIN_eq, h.END_eq]

/-- The same region, so the same successor (10_state.md R26). -/
theorem Block.ReadyAt.succ_eq {b c : Block aw w} {p q : SlotAddr aw} (h : b.ReadyAt c p q) : c.succ = b.succ := by
  funext a
  rw [Block.succ, Block.succ, h.BEGIN_eq, h.END_eq]

/-- The region is handed on. -/
theorem Block.ReadyAt.trans {b c d : Block aw w} {p q p' q' : SlotAddr aw} (h : b.ReadyAt c p q) (h' : c.ReadyAt d p' q') :
    b.ReadyAt d p' q' :=
  ⟨h'.ready, h'.inRange, h'.BEGIN_eq.trans h.BEGIN_eq, h'.END_eq.trans h.END_eq, h'.HEAD_eq, h'.TAIL_eq⟩

/-- A PUSH for which there is room moves TAIL one slot on and takes one slot of the room. -/
theorem Block.readyAt_push {b : Block aw w} (hr : b.ready) (h : b.inRange) (hroom : 0 < b.ROOMV) (e : Nat) :
    b.ReadyAt (b.after (.push e)) b.HEAD (b.succ b.TAIL) ∧ (b.after (.push e)).ROOMV = b.ROOMV - 1 := by
  have hF := (Block.FULL_eq_false_iff_ROOMV h).mpr hroom
  have hpush : b.after (.push e) = (b.pushStore (elemOperand w e)).pushAdvance := Block.pushCmd_of_ready hr hF _
  rw [hpush]
  exact ⟨⟨hr, Block.pushAdvance_inRange h, rfl, rfl, rfl, rfl⟩, Block.ROOMV_pushAdvance h hF⟩

/-- The two blocks have the same registers when both are ready at the same positions. -/
theorem Block.ReadyAt.sameRegisters {b c d : Block aw w} {p q : SlotAddr aw} (hc : b.ReadyAt c p q) (hd : b.ReadyAt d p q) :
    c.sameRegisters d :=
  ⟨hd.ready.1.trans hc.ready.1.symm, hd.ready.2.trans hc.ready.2.symm, hd.BEGIN_eq.trans hc.BEGIN_eq.symm,
    hd.END_eq.trans hc.END_eq.symm, hd.HEAD_eq.trans hc.HEAD_eq.symm, hd.TAIL_eq.trans hc.TAIL_eq.symm⟩

/-- PUSH commands for which there is room complete one and all: TAIL goes on by as many slots, and the room shrinks by them. -/
theorem Block.readyAt_pushes {b : Block aw w} (hr : b.ready) (h : b.inRange) (elems : List Nat)
    (hroom : (elems.length : Int) ≤ b.ROOMV) :
    b.ReadyAt (b.afterAll (elems.map .push)) b.HEAD (b.succ^[elems.length] b.TAIL) ∧
      (b.afterAll (elems.map .push)).ROOMV = b.ROOMV - elems.length := by
  induction elems generalizing b with
  | nil => exact ⟨⟨hr, h, rfl, rfl, rfl, rfl⟩, (sub_zero _).symm⟩
  | cons e es ih =>
    rw [List.length_cons, Nat.cast_succ] at hroom
    obtain ⟨hfirst, hless⟩ := Block.readyAt_push hr h (by omega) e
    obtain ⟨hlater, hleft⟩ := ih hfirst.ready hfirst.inRange (by omega)
    rw [hfirst.HEAD_eq, hfirst.TAIL_eq, hfirst.succ_eq] at hlater
    exact ⟨hfirst.trans hlater, hleft.trans (by rw [hless, List.length_cons]; omega)⟩

/-- A POP for which there is an element moves HEAD one slot on, and one slot is held less. -/
theorem Block.readyAt_pop {b : Block aw w} (hr : b.ready) (h : b.inRange) (hocc : 0 < b.OCC) :
    b.ReadyAt (b.after .pop) (b.succ b.HEAD) b.TAIL ∧ (b.after .pop).OCC = b.OCC - 1 := by
  have hE := (Block.EMPTY_eq_false_iff h).mpr hocc
  have hpop : b.after .pop = b.popLoad.popAdvance := Block.popCmd_of_ready hr hE
  rw [hpop]
  exact ⟨⟨hr, Block.popAdvance_inRange h, rfl, rfl, rfl, rfl⟩, Block.OCC_popAdvance h hE⟩

/-- POP commands for which there are elements complete one and all, and as many slots are held less. -/
theorem Block.readyAt_pops {b : Block aw w} (hr : b.ready) (h : b.inRange) (n : Nat) (hocc : (n : Int) ≤ b.OCC) :
    b.ReadyAt (b.afterAll (List.replicate n .pop)) (b.succ^[n] b.HEAD) b.TAIL ∧
      (b.afterAll (List.replicate n .pop)).OCC = b.OCC - n := by
  induction n generalizing b with
  | zero => exact ⟨⟨hr, h, rfl, rfl, rfl, rfl⟩, (sub_zero _).symm⟩
  | succ n ih =>
    rw [Nat.cast_succ] at hocc
    obtain ⟨hfirst, hless⟩ := Block.readyAt_pop hr h (by omega)
    obtain ⟨hlater, hleft⟩ := ih hfirst.ready hfirst.inRange (by omega)
    rw [hfirst.HEAD_eq, hfirst.TAIL_eq, hfirst.succ_eq] at hlater
    exact ⟨hfirst.trans hlater, hleft.trans (by rw [hless]; omega)⟩

/-- Settles O53: the room left is ROOMV less the number pushed, and FULL is that none is left. -/
theorem fillingExactly : Obligations.FillingExactly := by
  intro elems s hr h hlen
  obtain ⟨hat, hroom⟩ := Block.readyAt_pushes hr h elems hlen
  have hfull : (s.blk.afterAll (elems.map .push)).FULL = true ↔ (elems.length : Int) = s.blk.ROOMV := by
    rw [← Block.ROOMV_eq_zero_iff hat.inRange, hroom, sub_eq_zero, eq_comm]
  exact ⟨_, runCommands_eq _ s, hat.ready.2, hfull,
    fun heq e => ⟨_, exec_push_of_full (s := s.withBlk _) hat.ready (hfull.mpr heq) e, rfl⟩⟩

/-- Settles O54: OCC is less by the number popped, and EMPTY is that nothing is left. -/
theorem drainingExactly : Obligations.DrainingExactly := by
  intro n s hr h hn
  obtain ⟨hat, hocc⟩ := Block.readyAt_pops hr h n hn
  have hempty : (s.blk.afterAll (List.replicate n .pop)).EMPTY = true ↔ (n : Int) = s.blk.OCC := by
    rw [← Block.OCC_eq_zero_iff hat.inRange, hocc, sub_eq_zero, eq_comm]
  exact ⟨_, runCommands_eq _ s, hat.ready.2, hempty,
    fun heq => ⟨_, exec_pop_of_empty (s := s.withBlk _) hat.ready (hempty.mpr heq), rfl⟩⟩

end Sys2Proof.Machine
end

section
/-! PROOFS. One PUSH and one POP, in either order (46_sequence_laws.md R178, R182): both cursors move one slot on, and at a
boundary one of the orders faults. -/

namespace Sys2Proof.Machine

variable {aw w : Nat}

/-- With no slot held there is room: the region has at least two slots. -/
theorem Block.ROOMV_pos_of_OCC_eq_zero {b : Block aw w} (h : b.inRange) (hocc : b.OCC = 0) : 0 < b.ROOMV := by
  have htwo := Block.two_le_SIZE h
  rw [Block.ROOMV_eq_sub_OCC]
  omega

/-- Where there is room, a PUSH and then a POP move both cursors one slot on. -/
theorem Block.readyAt_push_pop {b : Block aw w} (hr : b.ready) (h : b.inRange) (hroom : 0 < b.ROOMV) (e : Nat) :
    b.ReadyAt ((b.after (.push e)).after .pop) (b.succ b.HEAD) (b.succ b.TAIL) := by
  obtain ⟨hpush, hless⟩ := Block.readyAt_push hr h hroom e
  have hsome : 0 < (b.after (.push e)).OCC := by
    have hnonneg := (Block.OCC_range h).1
    rw [Block.ROOMV_eq_sub_OCC, Block.ROOMV_eq_sub_OCC, hpush.SIZE_eq] at hless
    omega
  obtain ⟨hpop, -⟩ := Block.readyAt_pop hpush.ready hpush.inRange hsome
  rw [hpush.HEAD_eq, hpush.TAIL_eq, hpush.succ_eq] at hpop
  exact hpush.trans hpop

/-- Where there is an element, a POP and then a PUSH move both cursors one slot on. -/
theorem Block.readyAt_pop_push {b : Block aw w} (hr : b.ready) (h : b.inRange) (hocc : 0 < b.OCC) (e : Nat) :
    b.ReadyAt ((b.after .pop).after (.push e)) (b.succ b.HEAD) (b.succ b.TAIL) := by
  obtain ⟨hpop, hless⟩ := Block.readyAt_pop hr h hocc
  have hroom : 0 < (b.after .pop).ROOMV := by
    have hmax := (Block.OCC_range h).2
    rw [Block.ROOMV_eq_sub_OCC, hpop.SIZE_eq]
    omega
  obtain ⟨hpush, -⟩ := Block.readyAt_push hpop.ready hpop.inRange hroom e
  rw [hpop.HEAD_eq, hpop.TAIL_eq, hpop.succ_eq] at hpush
  exact hpop.trans hpush

/-- From an empty buffer a PUSH and then a POP return the element pushed: HEAD is the slot it went to. -/
theorem Block.rspElem_push_pop {b : Block aw w} (hr : b.ready) (h : b.inRange) (hocc : b.OCC = 0) (e : Elem w) :
    (b.pushCmd e).popCmd.out.rspElem = e := by
  have hF := (Block.FULL_eq_false_iff_ROOMV h).mpr (Block.ROOMV_pos_of_OCC_eq_zero h hocc)
  have hslot : (b.pushStore e).pushAdvance.slot b.HEAD = some e := by
    rw [b.EMPTY_iff.mp ((Block.OCC_eq_zero_iff h).mp hocc)]
    exact b.slot_pushed_TAIL e
  rw [Block.pushCmd_popCmd hr h hF]
  exact Block.slotValue_of_slot hslot

/-- Settles O55: of two slots one can be held, so OCC is 0 or SIZE - 1, and a PUSH and a POP go from one to the other and
back. -/
theorem minimumSize : Obligations.MinimumSize := by
  intro s hr h hsize
  refine ⟨?_, fun hE e => ?_⟩
  · have hrange := Block.OCC_range h
    rw [← Block.OCC_eq_zero_iff h, ← Block.OCC_eq_max_iff h]
    omega
  · have hnone := (Block.OCC_eq_zero_iff h).mpr hE
    have hroom := Block.ROOMV_pos_of_OCC_eq_zero h hnone
    obtain ⟨hpush, hless⟩ := Block.readyAt_push hr h hroom e
    have hfull : (s.blk.after (.push e)).ROOMV = 0 := by rw [hless, Block.ROOMV_eq_sub_OCC, hsize, hnone]; rfl
    have hpop := Block.readyAt_push_pop hr h hroom e
    have hempty : ((s.blk.after (.push e)).after .pop).EMPTY = true := by
      rw [Block.EMPTY_iff, hpop.HEAD_eq, hpop.TAIL_eq, s.blk.EMPTY_iff.mp hE]
    exact ⟨_, _, exec_eq_after _ s, hpush.ready.2, (Block.ROOMV_eq_zero_iff hpush.inRange).mp hfull, hfull,
      exec_eq_after _ (s.withBlk _), hpop.ready.2, hempty, congrArg BitVec.toNat (Block.rspElem_push_pop hr h hnone _)⟩

/-- Where there is an element and room, both orders of a PUSH and a POP leave the same slots: the same store, the same
load. -/
theorem Block.sameStorage_push_pop {b : Block aw w} (hr : b.ready) (h : b.inRange) (hE : b.EMPTY = false)
    (hF : b.FULL = false) (e : Elem w) :
    (b.pushCmd e).popCmd.sameStorage (b.popCmd.pushCmd e) ∧ (b.pushCmd e).popCmd.out.rspElem = b.popCmd.out.rspElem := by
  rw [Block.pushCmd_popCmd hr h hF, Block.popCmd_pushCmd hr h hE, Block.popCmd_of_ready hr hE]
  exact ⟨⟨fun _ => rfl, rfl, rfl⟩, Block.slotValue_HEAD_pushStore hE e⟩

/-- Settles O59: away from the boundaries both orders move both cursors one slot on; at OCC = 0 a POP has to wait for the PUSH,
at OCC = SIZE - 1 a PUSH for the POP. -/
theorem pushPopCommute : Obligations.PushPopCommute := by
  intro e s hr h
  have htwo := Block.two_le_SIZE h
  refine ⟨s.blk.after (.push e), (s.blk.after (.push e)).after .pop, s.blk.after .pop, (s.blk.after .pop).after (.push e),
    exec_eq_after _ s, exec_eq_after _ (s.withBlk _), exec_eq_after _ s, exec_eq_after _ (s.withBlk _),
    fun hpos hlt => ?interior, fun hzero => ?empty, fun hmax => ?full⟩
  case interior =>
    have hE := (Block.EMPTY_eq_false_iff h).mpr hpos
    have hF := (Block.FULL_eq_false_iff h).mpr hlt
    have hpushPop := Block.readyAt_push_pop hr h ((Block.FULL_eq_false_iff_ROOMV h).mp hF) e
    exact ⟨hpushPop.ready.2, hpushPop.sameRegisters (Block.readyAt_pop_push hr h hpos e),
      Block.sameStorage_push_pop hr h hE hF _⟩
  case empty =>
    have hfault : s.blk.after .pop = s.blk.raise .popOnEmpty :=
      Block.popCmd_of_empty hr ((Block.OCC_eq_zero_iff h).mp hzero)
    exact ⟨(Block.readyAt_push_pop hr h (Block.ROOMV_pos_of_OCC_eq_zero h hzero) e).ready.2,
      Block.rspElem_push_pop hr h hzero _, by rw [hfault]; rfl⟩
  case full =>
    have hfault : s.blk.after (.push e) = s.blk.raise .pushOnFull :=
      Block.pushCmd_of_full hr ((Block.OCC_eq_max_iff h).mp hmax) _
    exact ⟨(Block.readyAt_pop_push hr h (by omega) e).ready.2, by rw [hfault]; rfl⟩

end Sys2Proof.Machine
end

section
/-! PROOFS. Every pair of positions is reached from INIT (46_sequence_laws.md R179, 10_state.md R27). -/

namespace Sys2Proof.Machine

variable {aw w : Nat}

/-- Any slot of the region is reached from any other by `succ`, fewer than SIZE times: as often as OCC says of a buffer with
its cursors there. -/
theorem Block.exists_iterate_succ_eq {b : Block aw w} (hBE : b.BEGIN < b.END) {p q : SlotAddr aw} (hBp : b.BEGIN ≤ p)
    (hpE : p ≤ b.END) (hBq : b.BEGIN ≤ q) (hqE : q ≤ b.END) :
    ∃ n : Nat, (n : Int) ≤ b.SIZE - 1 ∧ b.succ^[n] p = q := by
  have hrange : ((b.setHead p).setTail q).inRange := ⟨hBE, hBp, hpE, hBq, hqE⟩
  obtain ⟨h0, hmax⟩ := Block.OCC_range hrange
  exact ⟨_, (Int.toNat_of_nonneg h0).trans_le hmax, Block.iterate_succ_HEAD hrange⟩

/-- `n` PUSH commands of the element 0, each followed by a POP. -/
def pushPops : Nat → List Instr
  | 0 => []
  | n + 1 => .push 0 :: .pop :: pushPops n

theorem opcode_of_mem_pushPops {n : Nat} {i : Instr} (h : i ∈ pushPops n) : i.opcode = .PUSH ∨ i.opcode = .POP := by
  induction n with
  | zero => exact absurd h List.not_mem_nil
  | succ n ih =>
    rcases List.mem_cons.mp h with rfl | h
    · exact .inl rfl
    rcases List.mem_cons.mp h with rfl | h
    · exact .inr rfl
    exact ih h

/-- `n` times a PUSH and a POP, and both cursors are `n` slots on. -/
theorem Block.readyAt_pushPops {b : Block aw w} (hr : b.ready) (h : b.inRange) (hE : b.HEAD = b.TAIL) (n : Nat) :
    b.ReadyAt (b.afterAll (pushPops n)) (b.succ^[n] b.HEAD) (b.succ^[n] b.HEAD) := by
  induction n generalizing b with
  | zero => exact ⟨hr, h, rfl, rfl, rfl, hE.symm⟩
  | succ n ih =>
    have hroom := Block.ROOMV_pos_of_OCC_eq_zero h (Block.OCC_of_cursors_eq hE)
    have hfirst := Block.readyAt_push_pop hr h hroom 0
    rw [← hE] at hfirst
    have hlater := ih hfirst.ready hfirst.inRange (hfirst.HEAD_eq.trans hfirst.TAIL_eq.symm)
    rw [hfirst.HEAD_eq, hfirst.succ_eq] at hlater
    exact hfirst.trans hlater

/-- From an empty buffer every pair of slots is reached: both cursors walk to the first by PUSH and POP, then TAIL to the second
by PUSH commands, for which there is room since fewer than SIZE are needed. -/
theorem Block.exists_readyAt {b : Block aw w} (hr : b.ready) (h : b.inRange) (hE : b.HEAD = b.TAIL) {p q : SlotAddr aw}
    (hBp : b.BEGIN ≤ p) (hpE : p ≤ b.END) (hBq : b.BEGIN ≤ q) (hqE : q ≤ b.END) :
    ∃ is : List Instr, (∀ i ∈ is, i.opcode = .PUSH ∨ i.opcode = .POP) ∧ b.ReadyAt (b.afterAll is) p q := by
  have ⟨hBE, hBH, hHE, _, _⟩ := h
  obtain ⟨n, -, hn⟩ := Block.exists_iterate_succ_eq hBE hBH hHE hBp hpE
  obtain ⟨m, hm, hpq⟩ := Block.exists_iterate_succ_eq hBE hBp hpE hBq hqE
  have hwalk := Block.readyAt_pushPops hr h hE n
  rw [hn] at hwalk
  generalize hc : b.afterAll (pushPops n) = c at hwalk
  have hroom : ((List.replicate m 0).length : Int) ≤ c.ROOMV := by
    rw [Block.ROOMV_eq_sub_OCC, Block.OCC_of_cursors_eq (hwalk.HEAD_eq.trans hwalk.TAIL_eq.symm), hwalk.SIZE_eq, sub_zero,
      List.length_replicate]
    exact hm
  obtain ⟨hpush, -⟩ := Block.readyAt_pushes hwalk.ready hwalk.inRange (List.replicate m 0) hroom
  rw [List.length_replicate, hwalk.HEAD_eq, hwalk.TAIL_eq, hwalk.succ_eq, hpq] at hpush
  refine ⟨pushPops n ++ (List.replicate m 0).map .push, fun i hi => ?_, ?_⟩
  · rcases List.mem_append.mp hi with hi | hi
    · exact opcode_of_mem_pushPops hi
    · obtain ⟨e, -, rfl⟩ := List.mem_map.mp hi
      exact .inl rfl
  · rw [Block.afterAll_append, hc]
    exact hwalk.trans hpush

/-- Settles O56: INIT leaves an empty buffer, from which the pair is reached. -/
theorem everyPairReachable : Obligations.EveryPairReachable := by
  intro base size h t s hf hbase hsize htwo hfits hbh hhe hbt hte
  obtain ⟨b, hexec, hINITED, hFAULT, hBEGIN, hEND, hHEAD, hTAIL, -⟩ :=
    initInstalls base size s hf hbase hsize htwo hfits
  obtain rfl := State.withBlk_inj (Host.Outcome.next.inj (hexec.symm.trans (exec_eq_after _ s)))
  have hrange : (s.blk.after (.init base size)).inRange := (Block.inRange_iff_toNat _).mpr (by omega)
  have hempty := BitVec.eq_of_toNat_eq (hHEAD.trans hTAIL.symm)
  have hfirst : (addrOperand s.params.aw h).toNat = h := addrOperand_toNat (by omega)
  have hlast : (addrOperand s.params.aw t).toNat = t := addrOperand_toNat (by omega)
  obtain ⟨cmds, hcmds, hat⟩ := Block.exists_readyAt ⟨hINITED, hFAULT⟩ hrange hempty
    (p := addrOperand _ h) (q := addrOperand _ t)
    (by rwa [BitVec.le_def, hBEGIN, hfirst]) (by rwa [BitVec.le_def, hEND, hfirst])
    (by rwa [BitVec.le_def, hBEGIN, hlast]) (by rwa [BitVec.le_def, hEND, hlast])
  exact ⟨cmds, _, hcmds, runCommands_eq _ s, hat.ready.2, (congrArg BitVec.toNat hat.BEGIN_eq).trans hBEGIN,
    (congrArg BitVec.toNat hat.END_eq).trans hEND, (congrArg BitVec.toNat hat.HEAD_eq).trans hfirst,
    (congrArg BitVec.toNat hat.TAIL_eq).trans hlast⟩

end Sys2Proof.Machine
end

section
/-! PROOFS. Entering a fault and being stopped by one (60_exceptions.md R200 to R207): what each leaves unchanged, and when each of the
four faults is raised. -/

namespace Sys2Proof.Machine

variable {aw w : Nat}

/-! ### Fault entry (R206) -/

/-- Entering a fault writes FAULT and nothing else, whatever the fault. -/
theorem Block.raise_frame (b : Block aw w) (f : FaultCode) :
    (b.raise f).FAULT = f ∧ (b.raise f).faultWires = f.code ∧
      b.sameButFault (b.raise f) ∧ b.sameStorage (b.raise f) ∧ (b.raise f).noAccess :=
  ⟨rfl, rfl, ⟨rfl, rfl, rfl, rfl, rfl⟩, ⟨fun _ => rfl, rfl, rfl⟩, rfl, rfl⟩

/-- Where it rejects its operands, INIT raises ConstructionError, initialised before or not (R202). -/
theorem exec_init_of_rejected {s : State} {base size : Nat} (hf : s.blk.FAULT = .noFault)
    (hr : initRejects (addrOperand s.params.aw base) (addrOperand s.params.aw size)) :
    exec (.init base size) s = .next (s.withBlk (s.blk.raise .constructionError)) := by
  rw [exec_eq_after, Block.after, Block.initCmd, Block.unlessFaulted_noFault hf, if_pos hr]

/-- Before INIT the only effect of another command is to raise Uninitialised (R201): all others need INITED = 1. -/
theorem Block.Effect.eq_raise_of_uninitialised {i : Instr} {b c : Block aw w} (h : Block.Effect i b c)
    (hf : b.FAULT = .noFault) (hi : b.INITED = false) (ho : i.opcode ≠ .INIT) : c = b.raise .uninitialised := by
  cases h with
  | stopped _ hne => exact absurd hf hne
  | uninitialised => rfl
  | rejected | installed => exact absurd rfl ho
  | _ hr => exact absurd (hi.symm.trans hr) nofun

/-- A command other than INIT, executed before INIT. -/
theorem exec_of_uninitialised {i : Instr} {s : State} (hf : s.blk.FAULT = .noFault) (hi : s.blk.INITED = false)
    (ho : i.opcode ≠ .INIT) : exec i s = .next (s.withBlk (s.blk.raise .uninitialised)) := by
  rw [exec_eq_after, (s.blk.after_effect i).eq_raise_of_uninitialised hf hi ho]

/-- Settles O14: the operands arrive whole, so the region is rejected, and entering a fault writes FAULT alone. (The obligation's own
name is taken by the model's test.) -/
theorem initRejectsFault : Obligations.InitRejects := fun _ _ s hf hbase hsize hbad =>
  ⟨_, exec_init_of_rejected hf ((initRejects_addrOperand_iff hbase hsize).mpr hbad), s.blk.raise_frame _⟩

/-- Settles O24: no other effect is open to the command, and entering a fault writes FAULT alone. -/
theorem uninitialisedFault : Obligations.UninitialisedFault := fun _ s hf hi ho =>
  ⟨_, exec_of_uninitialised hf hi ho, s.blk.raise_frame _⟩

/-- Settles O25: what a PUSH finds at the boundary is the fault, and entering it writes FAULT alone. -/
theorem pushOnFullFault : Obligations.PushOnFullFault := fun elem s hr hF =>
  ⟨_, exec_push_of_full hr hF elem, s.blk.raise_frame _⟩

/-- Settles O26: what a POP finds at the boundary is the fault, and entering it writes FAULT alone. -/
theorem popOnEmptyFault : Obligations.PopOnEmptyFault := fun s hr hE =>
  ⟨_, exec_pop_of_empty hr hE, s.blk.raise_frame _⟩

/-! ### Fail-stop (R207) -/

/-- A step that answers nothing leaves every register and slot as it was, without a storage access. -/
theorem Block.quiet_frame (b : Block aw w) : b.sameRegisters b.quiet ∧ b.sameStorage b.quiet ∧ b.quiet.noAccess :=
  ⟨⟨rfl, rfl, rfl, rfl, rfl, rfl⟩, ⟨fun _ => rfl, rfl, rfl⟩, rfl, rfl⟩

/-- While FAULT != 0 a command changes nothing. -/
theorem Block.Effect.frame_of_fault {i : Instr} {b c : Block aw w} (h : Block.Effect i b c) (hf : b.FAULT ≠ .noFault) :
    b.sameRegisters c ∧ b.sameStorage c ∧ c.noAccess := h.eq_quiet_of_fault hf ▸ b.quiet_frame

/-- Settles O27: every command completes with one of its effects, and while FAULT != 0 that effect is none. -/
theorem failStop : Obligations.FailStop := by
  intro i s hf
  obtain ⟨b, hexec, heff⟩ := exec_effect i s
  exact ⟨b, hexec, heff.frame_of_fault hf⟩

/-! ### Which fault a command raises (R205) -/

/-- The fault applies to the command in this state (R201 to R204); code 0 is no fault. -/
def Block.FaultApplies (b : Block aw w) (i : Instr) : FaultCode → Prop
  | .noFault => False
  | .uninitialised => i.opcode ≠ .INIT ∧ b.INITED = false
  | .constructionError => ∃ base size, i = .init base size ∧ initRejects (addrOperand aw base) (addrOperand aw size)
  | .pushOnFull => i.opcode = .PUSH ∧ b.INITED = true ∧ b.FULL = true
  | .popOnEmpty => i.opcode = .POP ∧ b.INITED = true ∧ b.EMPTY = true

/-- With FAULT = 0 a command raises a fault only where that fault applies (R208). -/
theorem Block.Effect.faultApplies {i : Instr} {b c : Block aw w} (h : Block.Effect i b c) (hf : b.FAULT = .noFault)
    (hc : c.FAULT ≠ .noFault) : b.FaultApplies i c.FAULT := by
  cases h with
  | stopped _ hne => exact absurd hf hne
  | uninitialised _ hi ho => exact ⟨ho, hi⟩
  | rejected _ hr => exact ⟨_, _, rfl, hr⟩
  | pushOnFull hi _ hF => exact ⟨rfl, hi, hF⟩
  | popOnEmpty hi _ hE => exact ⟨rfl, hi, hE⟩
  | _ => exact absurd hf hc

theorem Instr.eq_push_of_opcode {i : Instr} (h : i.opcode = .PUSH) : ∃ elem, i = .push elem := by
  cases i with
  | push elem => exact ⟨elem, rfl⟩
  | _ => nomatch h

theorem Instr.eq_pop_of_opcode {i : Instr} (h : i.opcode = .POP) : i = .pop := by
  cases i with
  | pop => rfl
  | _ => nomatch h

/-- With FAULT = 0 a command raises the fault that applies to it. -/
theorem exec_of_faultApplies {i : Instr} {s : State} {f : FaultCode} (hf : s.blk.FAULT = .noFault)
    (h : s.blk.FaultApplies i f) : exec i s = .next (s.withBlk (s.blk.raise f)) := by
  cases f with
  | noFault => nomatch h
  | uninitialised =>
    obtain ⟨ho, hi⟩ := h
    exact exec_of_uninitialised hf hi ho
  | constructionError =>
    obtain ⟨base, size, rfl, hr⟩ := h
    exact exec_init_of_rejected hf hr
  | pushOnFull =>
    obtain ⟨ho, hi, hF⟩ := h
    obtain ⟨elem, rfl⟩ := Instr.eq_push_of_opcode ho
    exact exec_push_of_full ⟨hi, hf⟩ hF elem
  | popOnEmpty =>
    obtain ⟨ho, hi, hE⟩ := h
    obtain rfl := Instr.eq_pop_of_opcode ho
    exact exec_pop_of_empty ⟨hi, hf⟩ hE

/-- With FAULT = 0 the fault a command leaves is the one that applies to it. -/
theorem FAULT_eq_iff_faultApplies {i : Instr} {s : State} {b : Block s.params.aw s.params.w} {f : FaultCode}
    (h : exec i s = .next (s.withBlk b)) (hf : s.blk.FAULT = .noFault) (hne : f ≠ .noFault) :
    b.FAULT = f ↔ s.blk.FaultApplies i f := by
  constructor
  · rintro rfl
    exact (effect_of_exec h).faultApplies hf hne
  · intro happlies
    obtain rfl := State.withBlk_inj (Host.Outcome.next.inj (h.symm.trans (exec_of_faultApplies hf happlies)))
    rfl

/-- What INIT rejects, over the integers as R202 writes it, for operands that fit their ports. -/
theorem initRejects_addrOperand_iff_int {base size : Nat} (hwf : WellFormed aw w (.init base size) = true) :
    initRejects (addrOperand aw base) (addrOperand aw size) ↔ size < 2 ∨ (base : Int) + size - 1 > 2 ^ aw - 1 := by
  simp only [WellFormed, Bool.and_eq_true, decide_eq_true_eq] at hwf
  obtain ⟨hbase, hsize⟩ := hwf
  rw [initRejects, addrOperand_toNat hbase, addrOperand_toNat hsize]
  exact or_congr_left Nat.cast_lt_ofNat

/-- Settles O29: with FAULT != 0 the only effect is none; with FAULT = 0 each clause is that its fault applies. -/
theorem faultPriority : Obligations.FaultPriority := by
  intro i s b hwf h
  refine ⟨(effect_of_exec h).frame_of_fault, fun hf => ?_⟩
  have hiff {f : FaultCode} (hne : f ≠ .noFault) := FAULT_eq_iff_faultApplies h hf hne
  refine ⟨(hiff (f := .constructionError) nofun).trans ?_, hiff nofun, hiff nofun, hiff nofun⟩
  refine exists_congr fun base => exists_congr fun size => and_congr_right ?_
  rintro rfl
  exact initRejects_addrOperand_iff_int hwf

end Sys2Proof.Machine
end

section
/-! PROOFS. Ownership (60_exceptions.md R210, R211): the contexts' commands keep to their own cursor, and the block does not look at
who issues a command. -/

namespace Sys2Proof.Machine

/-- Settles O32: the opcodes a context may issue stand outside the write columns of what it does not own. -/
theorem ownershipOfCursors : Obligations.OwnershipOfCursors := by
  intro i s b h
  obtain ⟨hregion, hHEAD, hTAIL⟩ := writeSets i s b h
  obtain ⟨-, -, hslots⟩ := storageAccesses i s b h
  constructor
  · intro hp
    obtain ⟨hnotInit, hnotPop, hnotFlush⟩ := Agent.opcode_of_producer hp
    refine ⟨?_, ?_, ?_⟩ <;> by_contra hne
    · exact (hHEAD hne).elim hnotInit fun h => h.elim hnotPop hnotFlush
    · exact hnotInit (hregion (.inl hne))
    · exact hnotInit (hregion (.inr (.inl hne)))
  · intro hc
    obtain ⟨hnotInit, hnotPush⟩ := Agent.opcode_of_consumer hc
    refine ⟨?_, ?_, ?_, fun a => ?_⟩ <;> by_contra hne
    · exact (hTAIL hne).elim hnotInit hnotPush
    · exact hnotInit (hregion (.inl hne))
    · exact hnotInit (hregion (.inr (.inl hne)))
    · exact hnotPush (hslots a hne).1

/-- Settles O33: with a valid sample both steps execute it, with another both are steps without a command, and the block without its
event is the same in both. -/
theorem issuerIgnored : Obligations.IssuerIgnored := by
  intro s who who' p rest
  cases hv : p.valid with
  | false =>
    have hidle (a : Agent) := step_of_idle (s := s.withBlk { s.blk with inputs := .present a p :: rest })
      (Block.nextInput_idle (.inr ⟨a, p, rest, rfl, hv⟩))
    exact (hidle who).trans (hidle who').symm
  | true =>
    have hcommand (a : Agent) := step_of_command (s := s.withBlk { s.blk with inputs := .present a p :: rest })
      (Block.nextInput_of_present rfl hv)
    exact (hcommand who).trans (hcommand who').symm

end Sys2Proof.Machine
end

section
/-! PROOFS. The reset event (70_reset_and_hazards.md R230): what it leaves, and what it forgets. -/

namespace Sys2Proof.Machine

variable {aw w : Nat}

/-- A reset event at the front of the list is the next input. -/
theorem Block.nextInput_of_reset {b : Block aw w} {rest : List (Event aw w)} (h : b.inputs = .reset :: rest) :
    b.nextInput = .reset := by
  rw [Block.nextInput, h]

/-- After a reset no slot has a value (20_memory.md R57). -/
theorem Block.slot_takeReset (b : Block aw w) (a : SlotAddr aw) : b.takeReset.slot a = none := Memory.read_nil a.toNat

/-- A reset drives no storage access (R52). -/
theorem Block.takeReset_noAccess (b : Block aw w) : b.takeReset.noAccess := ⟨rfl, rfl⟩

/-- Of a block a reset reads the model's two counters and the list of events alone. -/
theorem Block.takeReset_congr {b c : Block aw w} (hdraws : b.draws = c.draws) (hepoch : b.epoch = c.epoch)
    (hinputs : b.inputs = c.inputs) : b.takeReset = c.takeReset := by
  simp only [Block.takeReset, Block.quiet, hdraws, hepoch, hinputs]

/-- Settles O10: the step is the reset of the block without its event, and what it leaves is uninitialised and without a fault, where
only INIT does not raise Uninitialised (R201). -/
theorem resetEvent : Obligations.ResetEvent := by
  intro s rest hin
  have hrest : s.blk.takeInput.takeReset.inputs = rest := by
    rw [Block.takeReset_inputs, Block.takeInput_inputs, hin, List.tail_cons]
  exact ⟨_, step_of_reset (Block.nextInput_of_reset hin), Block.takeReset_INITED _, Block.takeReset_FAULT _,
    Block.slot_takeReset _, hrest, Block.takeReset_noAccess _,
    fun i ho => ⟨_, exec_of_uninitialised (Block.takeReset_FAULT _) (Block.takeReset_INITED _) ho, rfl⟩⟩

/-- Settles O11: both steps are resets, and what a reset reads of a block is the same in both. -/
theorem resetForgets : Obligations.ResetForgets := by
  intro p b c rest hb hc hdraws hepoch
  have htaken : b.takeInput.takeReset = c.takeInput.takeReset :=
    Block.takeReset_congr hdraws hepoch (by rw [Block.takeInput_inputs, Block.takeInput_inputs, hb, hc])
  calc step ⟨p, b⟩
      = .next ⟨p, b.takeInput.takeReset⟩ := step_of_reset (s := ⟨p, b⟩) (Block.nextInput_of_reset hb)
    _ = .next ⟨p, c.takeInput.takeReset⟩ := by rw [htaken]
    _ = step ⟨p, c⟩ := (step_of_reset (s := ⟨p, c⟩) (Block.nextInput_of_reset hc)).symm

end Sys2Proof.Machine
end
